-- ==== Sys2Proof/Word.lean ====
section
/-! DEFINITION. The byte of a frame or record (11 R186). Quantities of the manual are integers in their units
(00_scope Table 0-4) and are Nat or Int in this model; bit vectors hold only bytes, codes of converters and bit sets. -/

namespace Sys2Proof

/-- One byte of a frame or record. -/
abbrev Byte := BitVec 8

/-- A 12-bit code of an analog input (00_scope, Package and pins). -/
abbrev AdcCode := BitVec 12

end Sys2Proof
end

