-- ==== Sys2Proof/Config.lean ====
section
/-! DEFINITION. The free values: what the manual leaves open. None has a body, so a statement holds whatever they are.
Each is applied to the plain counter State.freeCount, which the drawing step advances. -/

namespace Sys2Proof

/-- Which of two events that fall at one moment is taken first, where the manual allows either order and the outcome
differs (R57, R97, R101, R133, R151). Log entry 6. -/
opaque Config.firstOfTwo : Nat → Bool

/-- The bytes that a slot or the stored configuration record reads back as after a write that failed its verification
(R12, R13, R18 say only that the content cannot be trusted). Log entries 9 and 11. -/
opaque Config.failedImage : Nat → List Byte

/-- The CRC that a slot holds after a write that failed its verification. Log entry 9. -/
opaque Config.failedCrc : Nat → BitVec 16

/-- The position that AXC reads where the encoder operand lies above 250 000 pu: the manual gives the reading a range
(Tables 0-4 and 6-1) and no result outside it. Log entry 13. -/
opaque Config.strayPosition : Nat → Fin 250001

end Sys2Proof
end

