-- ==== Sys2Proof/Syntax.lean ====
section
/-! DEFINITION. The commands: one constructor of Instr per row of spec/opcode_table.json, with what the command brings
from outside as operands. The table gives no row any fields; log entries 5 and 12 say how the operands were chosen. -/

namespace Sys2Proof

/-- The two ports (10 R174). -/
inductive Port where
  | line | service
  deriving DecidableEq, Repr

/-- The six permit inputs, in the order of Table 8-1. -/
inductive Permit where
  | coolantFlowOk | guardClosed | estopClear | convReady | driveReady | quenchPressureOk
  deriving DecidableEq, Repr

/-- The three quench circuits (05 R95). -/
inductive Circuit where
  | ringA | ringB | flood
  deriving DecidableEq, Repr

/-- The two converter inputs that CNV filters itself (07 R131). -/
inductive ConvInput where
  | convOn | convFault
  deriving DecidableEq, Repr

/-- The two travel limit switches (06 R126). -/
inductive LimitSwitch where
  | upper | lower
  deriving DecidableEq, Repr

/-- One value for each of the six permit inputs. -/
structure PerPermit (α : Type) where
  coolantFlowOk : α
  guardClosed : α
  estopClear : α
  convReady : α
  driveReady : α
  quenchPressureOk : α
  deriving DecidableEq, Repr

/-- The levels PFM samples at a monitor update (R144, R148), with the START input that ORD samples every 1 ms (R165);
true is high. Log entry 5. -/
structure MonitorLevels where
  permits : PerPermit Bool
  selSetup : Bool
  selAuto : Bool
  start : Bool
  deriving DecidableEq, Repr

/-- The first levels taken at the end of the start-up phase (R183): what AXC, CNV, PFM and ORD read then.
A limit switch level true is OPEN. -/
structure FirstLevels where
  encoder : Nat
  upperOpen : Bool
  lowerOpen : Bool
  convOn : Bool
  convFault : Bool
  monitor : MonitorLevels
  deriving DecidableEq, Repr

/-- The commands. A request constructor stands for the arrival of that whole request, checked, at a port: the tag and
the payload bytes of its frame (R175, Table 11-2). Log entry 12. -/
inductive Instr where
  | powerOn
  | resetPin
  | startupEnd (first : FirstLevels)
  | receiveByte (port : Port) (byte : Byte)
  | receivePause (port : Port)
  | frameSent (port : Port)
  | getStatus (port : Port) (tag : Byte) (payload : List Byte)
  | getLive (port : Port) (tag : Byte) (payload : List Byte)
  | getFaults (port : Port) (tag : Byte) (payload : List Byte)
  | getOrders (port : Port) (tag : Byte) (payload : List Byte)
  | getProfileInfo (port : Port) (tag : Byte) (payload : List Byte)
  | readProfile (port : Port) (tag : Byte) (payload : List Byte)
  | getPatches (port : Port) (tag : Byte) (payload : List Byte)
  | getConfig (port : Port) (tag : Byte) (payload : List Byte)
  | getSummary (port : Port) (tag : Byte) (payload : List Byte)
  | readSlices (port : Port) (tag : Byte) (payload : List Byte)
  | setNotices (port : Port) (tag : Byte) (payload : List Byte)
  | takeControl (port : Port) (tag : Byte) (payload : List Byte)
  | releaseControl (port : Port) (tag : Byte) (payload : List Byte)
  | enqueueOrder (port : Port) (tag : Byte) (payload : List Byte)
  | cancelOrder (port : Port) (tag : Byte) (payload : List Byte)
  | startScan (port : Port) (tag : Byte) (payload : List Byte)
  | acknowledge (port : Port) (tag : Byte) (payload : List Byte)
  | clearFaults (port : Port) (tag : Byte) (payload : List Byte)
  | trimAdjust (port : Port) (tag : Byte) (payload : List Byte)
  | loadPatch (port : Port) (tag : Byte) (payload : List Byte)
  | clearPatch (port : Port) (tag : Byte) (payload : List Byte)
  | beginProfile (port : Port) (tag : Byte) (payload : List Byte)
  | profileVertices (port : Port) (tag : Byte) (payload : List Byte)
  | commitProfile (port : Port) (tag : Byte) (payload : List Byte)
  | eraseProfile (port : Port) (tag : Byte) (payload : List Byte)
  | writeConfig (port : Port) (tag : Byte) (payload : List Byte)
  | jog (port : Port) (tag : Byte) (payload : List Byte)
  | restart (port : Port) (tag : Byte) (payload : List Byte)
  | abortScan (port : Port) (tag : Byte) (payload : List Byte)
  | commitComplete (verified : Bool)
  | eraseComplete (verified : Bool)
  | configWriteComplete (verified : Bool)
  | setpointUpdate
  | trimHoldExpiry
  | axisUpdate (encoder : Nat) (upperOpen : Bool) (lowerOpen : Bool)
  | stall
  | endOfMoveStall
  | limitSwitchChange (switch : LimitSwitch)
  | rotationPulse (micros : Nat)
  | rotationSettlingExpiry
  | rotationOutOfBand
  | channelUpdate (feedback : AdcCode) (convOn : Bool) (convFault : Bool)
  | convInputChange (input : ConvInput)
  | startTimerExpiry
  | converterStuckOn
  | powerFeedback
  | pyrometerSample (code : AdcCode)
  | coolantSample (code : AdcCode)
  | trackingStep
  | quenchUpdate (ringAOpen : Bool) (ringBOpen : Bool) (floodOpen : Bool)
  | valveMismatch (circuit : Circuit)
  | mismatchCleared (circuit : Circuit)
  | flowPulse (circuit : Circuit)
  | flowUpdate
  | riseTimeExpiry (circuit : Circuit)
  | monitorUpdate (levels : MonitorLevels)
  | permitChange (permit : Permit)
  | selectorChange
  | startEdge
  | dwellExpiry
  | soakExpiry
  | holdTimerExpiry
  | floodTimerExpiry
  | startInputFall
  deriving DecidableEq, Repr

end Sys2Proof
end

