-- ==== Sys2Proof/WellFormed.lean ====
section
/-! DEFINITION. Which commands the hardware can meet at all. An ill-formed command is a term that no event outside the
part is an instance of: a request with tag 0 or a payload no frame can carry (R175), an encoder reading outside
0 to 250 000 pu (Table 6-1), a microsecond count that is no place inside a millisecond. -/

namespace Sys2Proof

/-- The top of the position range (Table 0-4). -/
def positionMax : Nat := 250000

/-- The longest payload of a frame (Table 11-1). -/
def payloadMax : Nat := 240

/-- A request's frame can exist: tag 1 to 255, payload 0 to 240 bytes (R175, Table 11-1). -/
def requestWellFormed (tag : Byte) (payload : List Byte) : Bool :=
  decide (tag ≠ 0) && decide (payload.length ≤ payloadMax)

/-- Well-formedness of a command. -/
def Instr.wellFormed : Instr → Bool
  | .powerOn => true
  | .resetPin => true
  | .startupEnd first => decide (first.encoder ≤ positionMax)
  | .receiveByte _ _ => true
  | .receivePause _ => true
  | .frameSent _ => true
  | .getStatus _ tag payload => requestWellFormed tag payload
  | .getLive _ tag payload => requestWellFormed tag payload
  | .getFaults _ tag payload => requestWellFormed tag payload
  | .getOrders _ tag payload => requestWellFormed tag payload
  | .getProfileInfo _ tag payload => requestWellFormed tag payload
  | .readProfile _ tag payload => requestWellFormed tag payload
  | .getPatches _ tag payload => requestWellFormed tag payload
  | .getConfig _ tag payload => requestWellFormed tag payload
  | .getSummary _ tag payload => requestWellFormed tag payload
  | .readSlices _ tag payload => requestWellFormed tag payload
  | .setNotices _ tag payload => requestWellFormed tag payload
  | .takeControl _ tag payload => requestWellFormed tag payload
  | .releaseControl _ tag payload => requestWellFormed tag payload
  | .enqueueOrder _ tag payload => requestWellFormed tag payload
  | .cancelOrder _ tag payload => requestWellFormed tag payload
  | .startScan _ tag payload => requestWellFormed tag payload
  | .acknowledge _ tag payload => requestWellFormed tag payload
  | .clearFaults _ tag payload => requestWellFormed tag payload
  | .trimAdjust _ tag payload => requestWellFormed tag payload
  | .loadPatch _ tag payload => requestWellFormed tag payload
  | .clearPatch _ tag payload => requestWellFormed tag payload
  | .beginProfile _ tag payload => requestWellFormed tag payload
  | .profileVertices _ tag payload => requestWellFormed tag payload
  | .commitProfile _ tag payload => requestWellFormed tag payload
  | .eraseProfile _ tag payload => requestWellFormed tag payload
  | .writeConfig _ tag payload => requestWellFormed tag payload
  | .jog _ tag payload => requestWellFormed tag payload
  | .restart _ tag payload => requestWellFormed tag payload
  | .abortScan _ tag payload => requestWellFormed tag payload
  | .commitComplete _ => true
  | .eraseComplete _ => true
  | .configWriteComplete _ => true
  | .setpointUpdate => true
  | .trimHoldExpiry => true
  | .axisUpdate encoder _ _ => decide (encoder ≤ positionMax)
  | .stall => true
  | .endOfMoveStall => true
  | .limitSwitchChange _ => true
  | .rotationPulse micros => decide (micros < 1000)
  | .rotationSettlingExpiry => true
  | .rotationOutOfBand => true
  | .channelUpdate _ _ _ => true
  | .convInputChange _ => true
  | .startTimerExpiry => true
  | .converterStuckOn => true
  | .powerFeedback => true
  | .pyrometerSample _ => true
  | .coolantSample _ => true
  | .trackingStep => true
  | .quenchUpdate _ _ _ => true
  | .valveMismatch _ => true
  | .mismatchCleared _ => true
  | .flowPulse _ => true
  | .flowUpdate => true
  | .riseTimeExpiry _ => true
  | .monitorUpdate _ => true
  | .permitChange _ => true
  | .selectorChange => true
  | .startEdge => true
  | .dwellExpiry => true
  | .soakExpiry => true
  | .holdTimerExpiry => true
  | .floodTimerExpiry => true
  | .startInputFall => true

end Sys2Proof
end

