-- ==== Sys2Proof/Decode.lean ====
section
/-! DEFINITION. Words to commands. spec/opcode_table.json gives none of its 70 rows any bits, so no word spells a
command and every word is answered none. -/

namespace Sys2Proof

/-- The command a word spells by the table's bits: the table gives bits to no row. -/
def decodeTableWord (_nbits _w : Nat) : Option Instr := none

end Sys2Proof
end

