-- ==== Sys2Proof/Machine/Types.lean ====
section
/-! DEFINITION. The manual's fixed sets of names and its records, as plain data. The byte codes stand in Codes.lean,
the byte layouts in Formats.lean. -/

namespace Sys2Proof.Machine

/-- Mode selector positions (R148). -/
inductive Selector where
  | locked | setup | auto
  deriving DecidableEq, Repr

/-- Scan states (Table 3-1). -/
inductive ScanState where
  | idle | approach | ignite | dwell | scan | runout | soak | complete | quenchOut | flood | halted
  deriving DecidableEq, Repr

/-- Scan kinds (Table 3-1). -/
inductive ScanKind where
  | production | dry
  deriving DecidableEq, Repr

/-- Abort actions (Table 3-1). -/
inductive AbortAction where
  | quenchOut | flood | stop
  deriving DecidableEq, Repr

/-- QUENCH_OUT phases (R60). -/
inductive QuenchOutPhase where
  | draining | holding
  deriving DecidableEq, Repr

/-- Fault kinds in the row order of Table 8-3, then the two abort causes that are no fault kinds (Table 11-3). -/
inductive Cause where
  | converterNoStart | converterTrip | powerFeedback | coolantFlow | coolantHot | rotation | following | stall
  | reversal | travelLimit | driveNotReady | guardOpen | quenchPressure | valveMismatch | flowLow | estop
  | converterStuckOn | storeWrite | configDefaulted | hostAbort | selector
  deriving DecidableEq, Repr

/-- Classes of Table 3-3; faultOnly marks the three kinds that are no abort causes. -/
inductive CauseClass where
  | heatLoss | travelLoss | quenchLoss | emergency | faultOnly
  deriving DecidableEq, Repr

/-- The circuit item of a fault report (Tables 8-3 and 11-3). -/
inductive CircuitItem where
  | noItem
  | slot (number : Nat)
  | configRecord
  | circuit (c : Circuit)
  | limitSwitch (w : LimitSwitch)
  deriving DecidableEq, Repr

/-- Check codes in the order R3 applies the tests (Table 11-3). -/
inductive CheckCode where
  | vertexCount | name | pitch | quenchOffset | transitCapacity | transferTime | tolerance | ceiling | floor | soakTime
  | policy | patternPeriod | position | spacing | vtxPower | vtxSpeed | spindle | dwell | lastDwell
  | dwellExceedsTransfer | shape | trimTarget | trimIncomplete | ringMask | pattern | sliceCount | travelLength
  deriving DecidableEq, Repr

/-- Status codes in the row order of Table 10-2. -/
inductive Status where
  | ok | unknownKind | badLength | badValue | notInControl | wrongState | selector | busy | queueFull | duplicateTag
  | noSuchOrder | noOrder | profileInvalid | staleProfile | patchConflict | patchInvalid | faultHeld | permitMissing
  | notReady
  deriving DecidableEq, Repr

/-- Slot states (Table 1-4). -/
inductive SlotState where
  | empty | valid | invalid | writing
  deriving DecidableEq, Repr

/-- Slice states (Table 4-4). -/
inductive SliceState where
  | pending | heating | inTransit | quenching | done
  deriving DecidableEq, Repr

/-- Slice flags in the row order of Table 4-5, bits 0 to 10 of the flags word (Table 11-3); bits 11 to 15 are never set
and are sent as 0 (log entry 52). -/
inductive SliceFlag where
  | energyLow | energyHigh | clamped | noTrim | fewTurns | lateQuench | flowLow | heatCut | unquenched
  | floodQuenched | patched
  deriving DecidableEq, Repr

/-- Trim states (R31). -/
inductive TrimState where
  | acquiring | tracking | holding | lost
  deriving DecidableEq, Repr

/-- Travel states (Table 6-1). -/
inductive TravelState where
  | stopped | movingTo | tracking | brakingTo | holding
  deriving DecidableEq, Repr

/-- Move kinds (Table 6-1). -/
inductive MoveKind where
  | approach | jog | dwell | stop
  deriving DecidableEq, Repr

/-- The part of a move to a target that R117 is in: running or braking, or braking to 0 to turn toward a new target. -/
inductive MovePhase where
  | running | braking | reversing
  deriving DecidableEq, Repr

/-- The end-of-move wait of R115: none, timed, or waiting for rest with no further timing after a STALL. -/
inductive EndWait where
  | notWaiting | timed | untimed
  deriving DecidableEq, Repr

/-- The direction output (Table 6-1). -/
inductive Direction where
  | up | down
  deriving DecidableEq, Repr

/-- Rotation check states (R129). -/
inductive RotationCheck where
  | off | settling | inBand | outOfBand
  deriving DecidableEq, Repr

/-- Converter channel states (Table 7-1). -/
inductive ChannelState where
  | off | starting | running | stopping
  deriving DecidableEq, Repr

/-- Circuit states (Table 5-1). -/
inductive CircuitState where
  | closed | opened | mismatch
  deriving DecidableEq, Repr

/-- Flow check states (R106). -/
inductive FlowCheck where
  | idle | rising | watching
  deriving DecidableEq, Repr

/-- Flood marking (Table 4-1). -/
inductive FloodStatus where
  | unmarked | unconfirmed | confirmed
  deriving DecidableEq, Repr

/-- Reset causes (R159). -/
inductive ResetCause where
  | powerOn | resetPin | restartRequest
  deriving DecidableEq, Repr

/-- Results of a scan (R172). -/
inductive ScanResult where
  | good | reject | aborted | dry
  deriving DecidableEq, Repr

/-- Patterns of LAMP_FAULT (R157). -/
inductive LampPattern where
  | off | fast | slow
  deriving DecidableEq, Repr

/-- Notice kinds (Table 10-4), in the bit order of a notice mask. -/
inductive NoticeKind where
  | state | fault | order | store | slice | selector
  deriving DecidableEq, Repr

/-- Source of the configuration record in force (R19). -/
inductive ConfigSource where
  | stored | defaults
  deriving DecidableEq, Repr

/-- A quench pattern: its period and the on/off value of each of the 32 step positions (R2). -/
structure Pattern where
  period : Nat
  steps : BitVec 32
  deriving DecidableEq, Repr

/-- A profile header (Table 1-1). `patterns` holds patterns 1 to 4. -/
structure Header where
  name : List Byte
  pitch : Nat
  quenchOffset : Nat
  maxTransfer : Nat
  tolerance : Nat
  ceiling : Nat
  floor : Nat
  soakTime : Nat
  policy : Byte
  patterns : List Pattern
  deriving DecidableEq, Repr

/-- Every vertex field of Table 1-2 except the position: what a patch replaces (R170). -/
structure VertexPlan where
  power : Nat
  speed : Nat
  spindle : Nat
  dwell : Nat
  shape : Byte
  tSet : Nat
  alpha : Nat
  ringMask : Byte
  pattern : Nat
  restart : Bool
  minTurns : Nat
  deriving DecidableEq, Repr

/-- A vertex (Table 1-2). -/
structure Vertex where
  position : Nat
  plan : VertexPlan
  deriving DecidableEq, Repr

/-- A profile: a header and its vertices. -/
structure Profile where
  header : Header
  vertices : List Vertex
  deriving DecidableEq, Repr

/-- The configuration record (Table 1-5), fields 1 to 23 in order. -/
structure ConfigRecord where
  rating : Nat
  fullScale : Nat
  travelLength : Nat
  approachSpeed : Nat
  jogSpeed : Nat
  accel : Nat
  followingLimit : Nat
  stallTime : Nat
  reversalLimit : Nat
  rotationBand : Nat
  pulsesPerRev : Nat
  trimGain : Nat
  trimLimit : Nat
  slew : Nat
  deviationLimit : Nat
  coolantWarn : Nat
  coolantTrip : Nat
  flowPulsesPerLitre : Nat
  minFlowA : Nat
  minFlowB : Nat
  minFlowFlood : Nat
  flowRiseTime : Nat
  floodTime : Nat
  deriving DecidableEq, Repr

/-- The defaults of Table 1-5. -/
def ConfigRecord.defaults : ConfigRecord where
  rating := 1000
  fullScale := 1000
  travelLength := 10000
  approachSpeed := 500
  jogSpeed := 200
  accel := 10
  followingLimit := 200
  stallTime := 1000
  reversalLimit := 50
  rotationBand := 10
  pulsesPerRev := 1
  trimGain := 0
  trimLimit := 0
  slew := 10
  deviationLimit := 100
  coolantWarn := 350
  coolantTrip := 450
  flowPulsesPerLitre := 100
  minFlowA := 0
  minFlowB := 0
  minFlowFlood := 0
  flowRiseTime := 500
  floodTime := 5000

/-- A vertex plan of zeros, what an index past a list's end is read as. -/
def VertexPlan.zero : VertexPlan := ⟨0, 0, 0, 0, 0, 0, 0, 0, 0, false, 0⟩

/-- A vertex of zeros. -/
def Vertex.zero : Vertex := ⟨0, VertexPlan.zero⟩

/-- A header of zeros: the content of a slot or buffer that holds none. Log entry 8. -/
def Header.zero : Header :=
  ⟨List.replicate 16 0, 0, 0, 0, 0, 0, 0, 0, 0, List.replicate 4 ⟨0, 0⟩⟩

/-- The content of a slot that holds no profile. -/
def Profile.none : Profile := ⟨Header.zero, []⟩

/-- A frame of the link (Table 11-1), without marker, length and CRC, which are functions of it. -/
structure Frame where
  tag : Byte
  kind : Byte
  payload : List Byte
  deriving DecidableEq, Repr

/-- A reply's status and the content after it (R177). -/
structure Reply where
  status : Status
  content : List Byte
  deriving DecidableEq, Repr

end Sys2Proof.Machine
end

