-- ==== Sys2Proof/Machine/Codes.lean ====
section
/-! DEFINITION. The code values of Table 11-3 and the bit places of its sets. -/

namespace Sys2Proof.Machine

def Selector.code : Selector → Nat
  | .locked => 0 | .setup => 1 | .auto => 2

def ScanState.code : ScanState → Nat
  | .idle => 0 | .approach => 1 | .ignite => 2 | .dwell => 3 | .scan => 4 | .runout => 5 | .soak => 6
  | .complete => 7 | .quenchOut => 8 | .flood => 9 | .halted => 10

def ScanKind.code : ScanKind → Nat
  | .production => 0 | .dry => 1

/-- 0 means none (Table 11-3). -/
def AbortAction.code : Option AbortAction → Nat
  | none => 0 | some .quenchOut => 1 | some .flood => 2 | some .stop => 3

def QuenchOutPhase.code : Option QuenchOutPhase → Nat
  | none => 0 | some .draining => 1 | some .holding => 2

/-- 0x01 to 0x13 in the row order of Table 8-3, HOST_ABORT 0x14, SELECTOR 0x15. -/
def Cause.code : Cause → Nat
  | .converterNoStart => 0x01 | .converterTrip => 0x02 | .powerFeedback => 0x03 | .coolantFlow => 0x04
  | .coolantHot => 0x05 | .rotation => 0x06 | .following => 0x07 | .stall => 0x08 | .reversal => 0x09
  | .travelLimit => 0x0A | .driveNotReady => 0x0B | .guardOpen => 0x0C | .quenchPressure => 0x0D
  | .valveMismatch => 0x0E | .flowLow => 0x0F | .estop => 0x10 | .converterStuckOn => 0x11 | .storeWrite => 0x12
  | .configDefaulted => 0x13 | .hostAbort => 0x14 | .selector => 0x15

/-- The class of a cause (Table 3-3). -/
def Cause.cls : Cause → CauseClass
  | .converterNoStart => .heatLoss | .converterTrip => .heatLoss | .powerFeedback => .heatLoss
  | .coolantFlow => .heatLoss | .coolantHot => .heatLoss | .rotation => .heatLoss
  | .following => .travelLoss | .stall => .travelLoss | .reversal => .travelLoss | .travelLimit => .travelLoss
  | .driveNotReady => .travelLoss | .guardOpen => .travelLoss
  | .quenchPressure => .quenchLoss | .valveMismatch => .quenchLoss | .flowLow => .quenchLoss
  | .estop => .emergency
  | .converterStuckOn => .faultOnly | .storeWrite => .faultOnly | .configDefaulted => .faultOnly
  | .hostAbort => .heatLoss | .selector => .heatLoss

def CircuitItem.code : CircuitItem → Nat
  | .noItem => 0
  | .slot n => n
  | .configRecord => 0x21
  | .circuit .ringA => 0x31 | .circuit .ringB => 0x32 | .circuit .flood => 0x33
  | .limitSwitch .upper => 0x41 | .limitSwitch .lower => 0x42

def CheckCode.code : CheckCode → Nat
  | .vertexCount => 0x01 | .name => 0x02 | .pitch => 0x03 | .quenchOffset => 0x04 | .transitCapacity => 0x05
  | .transferTime => 0x06 | .tolerance => 0x07 | .ceiling => 0x08 | .floor => 0x09 | .soakTime => 0x0A
  | .policy => 0x0B | .patternPeriod => 0x0C | .position => 0x0D | .spacing => 0x0E | .vtxPower => 0x0F
  | .vtxSpeed => 0x10 | .spindle => 0x11 | .dwell => 0x12 | .lastDwell => 0x13 | .dwellExceedsTransfer => 0x14
  | .shape => 0x15 | .trimTarget => 0x16 | .trimIncomplete => 0x17 | .ringMask => 0x18 | .pattern => 0x19
  | .sliceCount => 0x1A | .travelLength => 0x1B

def Status.code : Status → Nat
  | .ok => 0x00 | .unknownKind => 0x01 | .badLength => 0x02 | .badValue => 0x03 | .notInControl => 0x04
  | .wrongState => 0x05 | .selector => 0x06 | .busy => 0x07 | .queueFull => 0x08 | .duplicateTag => 0x09
  | .noSuchOrder => 0x0A | .noOrder => 0x0B | .profileInvalid => 0x0C | .staleProfile => 0x0D
  | .patchConflict => 0x0E | .patchInvalid => 0x0F | .faultHeld => 0x10 | .permitMissing => 0x11 | .notReady => 0x12

def SlotState.code : SlotState → Nat
  | .empty => 0 | .valid => 1 | .invalid => 2 | .writing => 3

def SliceState.code : SliceState → Nat
  | .pending => 0 | .heating => 1 | .inTransit => 2 | .quenching => 3 | .done => 4

/-- The bit of a slice flag (Table 11-3: bits 0 to 10 in the row order of Table 4-5). -/
def SliceFlag.bit : SliceFlag → Nat
  | .energyLow => 0 | .energyHigh => 1 | .clamped => 2 | .noTrim => 3 | .fewTurns => 4 | .lateQuench => 5
  | .flowLow => 6 | .heatCut => 7 | .unquenched => 8 | .floodQuenched => 9 | .patched => 10

def TrimState.code : TrimState → Nat
  | .acquiring => 0 | .tracking => 1 | .holding => 2 | .lost => 3

def TravelState.code : TravelState → Nat
  | .stopped => 0 | .movingTo => 1 | .tracking => 2 | .brakingTo => 3 | .holding => 4

def MoveKind.code : Option MoveKind → Nat
  | none => 0 | some .approach => 1 | some .jog => 2 | some .dwell => 3 | some .stop => 4

def Direction.code : Direction → Nat
  | .up => 0 | .down => 1

def RotationCheck.code : RotationCheck → Nat
  | .off => 0 | .settling => 1 | .inBand => 2 | .outOfBand => 3

def ChannelState.code : ChannelState → Nat
  | .off => 0 | .starting => 1 | .running => 2 | .stopping => 3

def CircuitState.code : CircuitState → Nat
  | .closed => 0 | .opened => 1 | .mismatch => 2

def FlowCheck.code : FlowCheck → Nat
  | .idle => 0 | .rising => 1 | .watching => 2

def ResetCause.code : ResetCause → Nat
  | .powerOn => 0 | .resetPin => 1 | .restartRequest => 2

def ScanResult.code : ScanResult → Nat
  | .good => 0 | .reject => 1 | .aborted => 2 | .dry => 3

/-- Indicator codes: off 0, fast flash 2, slow flash 3. -/
def LampPattern.code : LampPattern → Nat
  | .off => 0 | .fast => 2 | .slow => 3

def NoticeKind.code : NoticeKind → Nat
  | .state => 0xE0 | .fault => 0xE1 | .order => 0xE2 | .store => 0xE3 | .slice => 0xE4 | .selector => 0xE5

/-- The bit of a notice kind in a mask (Table 11-2, SET_NOTICES). -/
def NoticeKind.bit : NoticeKind → Nat
  | .state => 0 | .fault => 1 | .order => 2 | .store => 3 | .slice => 4 | .selector => 5

def ConfigSource.code : ConfigSource → Nat
  | .stored => 0 | .defaults => 1

def portCode : Port → Nat
  | .line => 0 | .service => 1

def holderCode : Option Port → Nat
  | none => 0 | some .line => 1 | some .service => 2

/-- Abort policy codes: QUENCH_OUT 0, FLOOD 1 (Table 11-3). -/
def policyIsFlood (policy : Byte) : Bool := policy == 1

def policyKnown (policy : Byte) : Bool := policy == 0 || policy == 1

/-- Shape codes: RAMP 0, STEP 1 (Table 11-3). -/
def shapeIsRamp (shape : Byte) : Bool := shape == 0

def shapeKnown (shape : Byte) : Bool := shape == 0 || shape == 1

/-- Whether a ring mask names a ring: bit 0 RING_A, bit 1 RING_B. FLOOD is in no mask (R100). -/
def maskHas (mask : Byte) : Circuit → Bool
  | .ringA => mask.getLsbD 0
  | .ringB => mask.getLsbD 1
  | .flood => false

/-- The value for one permit input. -/
def permitGet {α : Type} (v : PerPermit α) : Permit → α
  | .coolantFlowOk => v.coolantFlowOk
  | .guardClosed => v.guardClosed
  | .estopClear => v.estopClear
  | .convReady => v.convReady
  | .driveReady => v.driveReady
  | .quenchPressureOk => v.quenchPressureOk

/-- The values with one permit input's replaced. -/
def permitSet {α : Type} (v : PerPermit α) (x : α) : Permit → PerPermit α
  | .coolantFlowOk => { v with coolantFlowOk := x }
  | .guardClosed => { v with guardClosed := x }
  | .estopClear => { v with estopClear := x }
  | .convReady => { v with convReady := x }
  | .driveReady => { v with driveReady := x }
  | .quenchPressureOk => { v with quenchPressureOk := x }

/-- One value for all six inputs. -/
def permitAll {α : Type} (x : α) : PerPermit α := ⟨x, x, x, x, x, x⟩

/-- A function applied input by input to two sets of values. -/
def permitZip {α β γ : Type} (f : α → β → γ) (a : PerPermit α) (b : PerPermit β) : PerPermit γ :=
  ⟨f a.coolantFlowOk b.coolantFlowOk, f a.guardClosed b.guardClosed, f a.estopClear b.estopClear,
    f a.convReady b.convReady, f a.driveReady b.driveReady, f a.quenchPressureOk b.quenchPressureOk⟩

/-- The cause a lost permit raises while a scan runs (R147). -/
def permitCause : Permit → Cause
  | .coolantFlowOk => .coolantFlow
  | .guardClosed => .guardOpen
  | .estopClear => .estop
  | .convReady => .converterTrip
  | .driveReady => .driveNotReady
  | .quenchPressureOk => .quenchPressure

/-- The decoded selector position of R148. -/
def decodeSelector (setup auto : Bool) : Selector :=
  if setup && !auto then .setup else if auto && !setup then .auto else .locked

end Sys2Proof.Machine
end

