-- ==== Sys2Proof/Machine/Crc.lean ====
section
/-! DEFINITION. The CRC-16 of R187: generator 0x1021, register from 0xFFFF, each byte most significant bit first, no
reflection, no final inversion. It serves frames, profile slots (R7) and the configuration record (1.7). -/

namespace Sys2Proof.Machine

/-- One shift of the register. -/
def crcShift (r : BitVec 16) : BitVec 16 :=
  if r.msb then (r <<< 1) ^^^ 0x1021#16 else r <<< 1

/-- The register after one byte. -/
def crcByte (r : BitVec 16) (b : Byte) : BitVec 16 :=
  crcShift (crcShift (crcShift (crcShift (crcShift (crcShift (crcShift (crcShift
    (r ^^^ (b.setWidth 16 <<< 8)))))))))

/-- The register after a run of bytes. -/
def crcFrom (r : BitVec 16) : List Byte → BitVec 16
  | [] => r
  | b :: bs => crcFrom (crcByte r b) bs

/-- The CRC-16 of a run of bytes (R187). -/
def crc16 (bs : List Byte) : BitVec 16 := crcFrom 0xFFFF#16 bs

end Sys2Proof.Machine
end

