-- ==== Sys2Proof/Machine/Formats.lean ====
section
/-! DEFINITION. Byte layouts of records and frames (11 R186, R187): profile header, vertex, configuration record,
slot image, frame. Every layout is written once, as an encoder and a reader at byte offsets. -/

namespace Sys2Proof.Machine

/-- One byte of a value. -/
def byteOf (v : Nat) : Byte := BitVec.ofNat 8 v

/-- A value in n bytes, most significant byte first (R186). -/
def beBytes : Nat → Nat → List Byte
  | 0, _ => []
  | n + 1, v => byteOf (v >>> (8 * n)) :: beBytes n v

/-- The value of a run of bytes, most significant byte first. -/
def beNat (bs : List Byte) : Nat := bs.foldl (fun acc b => acc * 256 + b.toNat) 0

/-- The value of the `len` bytes at an offset. -/
def field (bs : List Byte) (off len : Nat) : Nat := beNat ((bs.drop off).take len)

/-- The byte at an offset. -/
def byteAt (bs : List Byte) (off : Nat) : Byte := bs.getD off 0

/-- A signed value in two bytes, two's complement (R186). -/
def beInt16 (v : Int) : List Byte := beBytes 2 (v % 65536).toNat

/-- A flag byte: the H340 writes only 0 and 1 (R186). -/
def flagByte (b : Bool) : Byte := if b then 1 else 0

/-- A field that may be none, under the reserved all-ones value (R186). -/
def beOpt (n : Nat) : Option Nat → List Byte
  | none => List.replicate n 0xFF
  | some v => beBytes n v

/-- Several flags in one byte, the first in bit 0. The bits that a layout names nothing for are sent as 0: R186 and the
layouts of chapter 11 do not say what they hold (DESIGN CHOICE, log entry 52). -/
def bitsByte (bs : List Bool) : Byte :=
  byteOf (bs.foldr (fun b acc => 2 * acc + (if b then 1 else 0)) 0)

/-- A pattern, 5 bytes: step position s is bit (s mod 8) of byte floor(s / 8) (Table 11-4). -/
def Pattern.encode (p : Pattern) : List Byte :=
  byteOf p.period ::
    [p.steps.extractLsb' 0 8, p.steps.extractLsb' 8 8, p.steps.extractLsb' 16 8, p.steps.extractLsb' 24 8]

def Pattern.read (bs : List Byte) (off : Nat) : Pattern where
  period := (byteAt bs off).toNat
  steps := byteAt bs (off + 4) ++ byteAt bs (off + 3) ++ byteAt bs (off + 2) ++ byteAt bs (off + 1)

/-- A header, 51 bytes (Table 11-4). -/
def Header.encode (h : Header) : List Byte :=
  h.name ++ beBytes 2 h.pitch ++ beBytes 2 h.quenchOffset ++ beBytes 2 h.maxTransfer ++ beBytes 2 h.tolerance
    ++ beBytes 2 h.ceiling ++ beBytes 2 h.floor ++ beBytes 2 h.soakTime ++ [h.policy]
    ++ h.patterns.flatMap Pattern.encode

def Header.read (bs : List Byte) : Header where
  name := bs.take 16
  pitch := field bs 16 2
  quenchOffset := field bs 18 2
  maxTransfer := field bs 20 2
  tolerance := field bs 22 2
  ceiling := field bs 24 2
  floor := field bs 26 2
  soakTime := field bs 28 2
  policy := byteAt bs 30
  patterns := [Pattern.read bs 31, Pattern.read bs 36, Pattern.read bs 41, Pattern.read bs 46]

/-- A replacement vertex, 16 bytes: Table 11-5 without its position. -/
def VertexPlan.encode (v : VertexPlan) : List Byte :=
  beBytes 2 v.power ++ beBytes 2 v.speed ++ beBytes 2 v.spindle ++ beBytes 2 v.dwell ++ [v.shape]
    ++ beBytes 2 v.tSet ++ [byteOf v.alpha, v.ringMask, byteOf v.pattern, flagByte v.restart, byteOf v.minTurns]

/-- Any nonzero pattern restart byte is read as set (R186, Table 1-2). -/
def VertexPlan.read (bs : List Byte) (off : Nat) : VertexPlan where
  power := field bs off 2
  speed := field bs (off + 2) 2
  spindle := field bs (off + 4) 2
  dwell := field bs (off + 6) 2
  shape := byteAt bs (off + 8)
  tSet := field bs (off + 9) 2
  alpha := (byteAt bs (off + 11)).toNat
  ringMask := byteAt bs (off + 12)
  pattern := (byteAt bs (off + 13)).toNat
  restart := byteAt bs (off + 14) != 0
  minTurns := (byteAt bs (off + 15)).toNat

/-- A vertex, 19 bytes (Table 11-5). -/
def Vertex.encode (v : Vertex) : List Byte := beBytes 3 v.position ++ v.plan.encode

def Vertex.read (bs : List Byte) (off : Nat) : Vertex := ⟨field bs off 3, VertexPlan.read bs (off + 3)⟩

/-- `n` vertices from an offset on. -/
def readVertices (bs : List Byte) : Nat → Nat → List Vertex
  | 0, _ => []
  | n + 1, off => Vertex.read bs off :: readVertices bs n (off + 19)

/-- The configuration record, 45 bytes (Table 11-8). -/
def ConfigRecord.encode (c : ConfigRecord) : List Byte :=
  beBytes 2 c.rating ++ beBytes 2 c.fullScale ++ beBytes 4 c.travelLength ++ beBytes 2 c.approachSpeed
    ++ beBytes 2 c.jogSpeed ++ beBytes 2 c.accel ++ beBytes 2 c.followingLimit ++ beBytes 2 c.stallTime
    ++ beBytes 2 c.reversalLimit ++ [byteOf c.rotationBand, byteOf c.pulsesPerRev, byteOf c.trimGain]
    ++ beBytes 2 c.trimLimit ++ beBytes 2 c.slew ++ beBytes 2 c.deviationLimit ++ beBytes 2 c.coolantWarn
    ++ beBytes 2 c.coolantTrip ++ beBytes 2 c.flowPulsesPerLitre ++ beBytes 2 c.minFlowA ++ beBytes 2 c.minFlowB
    ++ beBytes 2 c.minFlowFlood ++ beBytes 2 c.flowRiseTime ++ beBytes 2 c.floodTime

def ConfigRecord.read (bs : List Byte) : ConfigRecord where
  rating := field bs 0 2
  fullScale := field bs 2 2
  travelLength := field bs 4 4
  approachSpeed := field bs 8 2
  jogSpeed := field bs 10 2
  accel := field bs 12 2
  followingLimit := field bs 14 2
  stallTime := field bs 16 2
  reversalLimit := field bs 18 2
  rotationBand := field bs 20 1
  pulsesPerRev := field bs 21 1
  trimGain := field bs 22 1
  trimLimit := field bs 23 2
  slew := field bs 25 2
  deviationLimit := field bs 27 2
  coolantWarn := field bs 29 2
  coolantTrip := field bs 31 2
  flowPulsesPerLitre := field bs 33 2
  minFlowA := field bs 35 2
  minFlowB := field bs 37 2
  minFlowFlood := field bs 39 2
  flowRiseTime := field bs 41 2
  floodTime := field bs 43 2

/-- The bytes a slot's CRC runs over: state, revision and profile (R7). The layout is a DESIGN CHOICE, log entry 10. -/
def slotImage (state : SlotState) (revision : Nat) (p : Profile) : List Byte :=
  byteOf state.code :: beBytes 2 revision ++ p.header.encode ++ p.vertices.flatMap Vertex.encode

/-- A slot's CRC-16 (R7). -/
def slotCrc (state : SlotState) (revision : Nat) (p : Profile) : BitVec 16 := crc16 (slotImage state revision p)

/-- The configuration record's CRC-16 (section 1.7). -/
def configCrc (c : ConfigRecord) : BitVec 16 := crc16 c.encode

/-- The bytes a frame's CRC runs over: length, tag, kind and payload (R187). -/
def Frame.body (f : Frame) : List Byte := byteOf (f.payload.length + 2) :: f.tag :: f.kind :: f.payload

/-- A frame as it goes over the line: marker, body, CRC high byte first (Table 11-1). -/
def Frame.bytes (f : Frame) : List Byte := 0xA5 :: f.body ++ beBytes 2 (crc16 f.body).toNat

end Sys2Proof.Machine
end

