-- ==== Sys2Proof/Machine/Rounding.lean ====
section
/-! DEFINITION. The three rounding names of 00_scope, with clamping and saturation. -/

namespace Sys2Proof.Machine

/-- Integer division rounded up on the exact quotient (R4, R6, R69). -/
def ceilDiv (n d : Nat) : Nat := (n + d - 1) / d

/-- half-up of n / d: the nearest integer, an exact half going up. -/
def halfUp (n d : Nat) : Nat := (2 * n + d) / (2 * d)

/-- half-away of n / d: the nearest integer, an exact half going away from zero. -/
def halfAway (n : Int) (d : Nat) : Int :=
  if 0 ≤ n then (halfUp n.toNat d : Int) else -(halfUp (-n).toNat d : Int)

/-- n replaced by the nearer end of lo to hi when it lies outside. -/
def clampNat (lo hi n : Nat) : Nat := max lo (min hi n)

/-- As clampNat, on signed quantities. -/
def clampInt (lo hi n : Int) : Int := max lo (min hi n)

/-- A sum that would pass the top of its range stays at the top (00_scope, Table 0-4 note 3). -/
def satAdd (top a b : Nat) : Nat := min top (a + b)

/-- The difference of two quantities, taken without sign (R136). -/
def absDiff (a b : Nat) : Nat := (a - b) + (b - a)

/-- The top of a 32-bit energy sum or clock (R42, R81). -/
def top32 : Nat := 4294967295

/-- The top of a 16-bit field (R85, R87, R105). -/
def top16 : Nat := 65535

end Sys2Proof.Machine
end

