-- ==== Sys2Proof/Machine/State.lean ====
section
/-! DEFINITION. Everything the spec gives the machine, block by block (00_scope Table 0-2), as plain data, with the
queue of waiting commands. INVENTORY.md lists every item with its rule and reset value. -/

namespace Sys2Proof.Machine

/-- One port's items (Table 10-1). `partialFrame` holds the bytes after the marker. `idleMs` counts the whole
milliseconds since the last byte while COLLECTING: the time of the last byte. -/
structure PortState where
  collecting : Bool
  partialFrame : List Byte
  idleMs : Nat
  buffer : List Frame
  inService : Option Frame
  tx : List Frame
  waiting : Option Frame
  mask : BitVec 6
  overrun : Bool
  dropped : Bool
  deriving DecidableEq, Repr

/-- The link interface (R174). -/
structure LifState where
  line : PortState
  service : PortState
  holder : Option Port
  restartPending : Bool
  deriving DecidableEq, Repr

/-- A profile slot (R7). Nonvolatile. -/
structure Slot where
  state : SlotState
  revision : Nat
  profile : Profile
  crc : BitVec 16
  deriving DecidableEq, Repr

/-- A write in progress, with the copy taken at acceptance (R8). -/
inductive WriteJob where
  | commit (slot : Nat) (copy : Profile)
  | erase (slot : Nat)
  | config (copy : ConfigRecord)
  deriving DecidableEq, Repr

/-- The stored copy of the configuration record (R18, R19). Nonvolatile. -/
structure StoredConfig where
  written : Bool
  writeMark : Bool
  record : ConfigRecord
  crc : BitVec 16
  deriving DecidableEq, Repr

/-- The profile store (Chapter 1). `stagedHeader` is none while the header-present flag is clear. -/
structure PstState where
  slots : List Slot
  channel : Option WriteJob
  stagedHeader : Option Header
  stagedVertices : List Vertex
  supplied : Nat
  stored : StoredConfig
  inForce : ConfigRecord
  source : ConfigSource
  deriving DecidableEq, Repr

/-- An order (R162). -/
structure Order where
  tag : Nat
  profile : Nat
  revision : Nat
  shaft : List Byte
  lineStart : Bool
  deriving DecidableEq, Repr

/-- The working profile with its source slot, the slot's revision, and the replaced vertices, each with the patch slot
that replaced it (R161, R168). -/
structure Working where
  profile : Profile
  source : Nat
  revision : Nat
  replaced : List (Nat × Nat)
  deriving DecidableEq, Repr

/-- The content of an enabled patch slot (R170). -/
structure Patch where
  profile : Nat
  vertex : Nat
  plan : VertexPlan
  deriving DecidableEq, Repr

/-- The scan summary (R172). -/
structure Summary where
  tag : Nat
  shaft : List Byte
  profile : Nat
  revision : Nat
  patches : List Nat
  kind : ScanKind
  result : ScanResult
  cause : Option Cause
  flagCounts : List Nat
  energy : Nat
  time : Nat
  largestTransfer : Option Nat
  deriving DecidableEq, Repr

/-- Orders, binding and patch slots (Table 9-1). A patch slot that is disabled and empty is none. -/
structure OrdState where
  queue : List Order
  running : Option Order
  working : Option Working
  patches : List (Option Patch)
  summary : Option Summary
  startLevel : Bool
  startStable : Nat
  startInput : Bool
  deriving DecidableEq, Repr

/-- The scan sequencer (Table 3-1). -/
structure SeqState where
  scanState : ScanState
  kind : ScanKind
  startSelector : Option Selector
  clock : Nat
  dwellVertex : Option Nat
  timer : Option Nat
  phase : Option QuenchOutPhase
  abortCause : Option Cause
  abortAction : Option AbortAction
  abortState : Option ScanState
  escalation : Option Cause
  deriving DecidableEq, Repr

/-- The active span (section 2.2): its index, the vertex's position, power and speed, and for a RAMP span the power
slope D and the speed slope D_v. -/
structure ActiveSpan where
  index : Nat
  x : Nat
  power : Nat
  speed : Nat
  slopes : Option (Int × Int)
  deriving DecidableEq, Repr

/-- The setpoint generator (Table 2-1). -/
structure SpgState where
  span : Option ActiveSpan
  scale : Nat
  pendingScale : Option Nat
  trim : TrimState
  lastCorr : Int
  holdTime : Nat
  pPrev : Nat
  pCmd : Nat
  dacCode : Nat
  plannedSpeed : Option Nat
  deriving DecidableEq, Repr

/-- The axis controller (Table 6-1). `cmdPos` is in 0.001 pu. `waiting` is the end-of-move wait of R115, `movePhase`
the part of R117 a move is in, `posReport` and `bandReport` what AXC last reported to SEQ (R45), `followOn` and
`reversalOn` whether those conditions held at the last update (R123), `steps` the step pulses of the last update,
`usInMs` the microseconds of the running millisecond already counted in `sincePulse` (R128, log entry 25). -/
structure AxcState where
  travel : TravelState
  moveKind : Option MoveKind
  target : Option Nat
  cmdPos : Nat
  direction : Direction
  vCmd : Nat
  holdSpeed : Option Nat
  nextDwell : Option Nat
  x : Nat
  highMark : Option Nat
  restCount : Nat
  waitTime : Nat
  waiting : EndWait
  movePhase : MovePhase
  stallRef : Nat
  stallTimer : Nat
  upperOpen : Bool
  lowerOpen : Bool
  upperStable : Nat
  lowerStable : Nat
  upperInput : Bool
  lowerInput : Bool
  followOn : Bool
  reversalOn : Bool
  posReport : Bool
  bandReport : Bool
  steps : Nat
  spindleCmd : Nat
  spindleSpeed : Nat
  sincePulse : Option Nat
  lastPeriod : Option Nat
  usInMs : Nat
  rotation : RotationCheck
  rotationTimer : Nat
  deriving DecidableEq, Repr

/-- The converter channel (Table 7-1). -/
structure CnvState where
  state : ChannelState
  enable : Bool
  setpoint : Nat
  deliveredPower : Nat
  deliveredCode : Nat
  startTimer : Option Nat
  stopTimer : Option Nat
  stuck : Bool
  deviationTimer : Nat
  convOn : Bool
  convFault : Bool
  onStable : Nat
  faultStable : Nat
  onInput : Bool
  faultInput : Bool
  pMeas : Nat
  tMeas : Nat
  tValid : Bool
  coolant : Option Nat
  derate : Nat
  hot : Bool
  deriving DecidableEq, Repr

/-- A slice record (Table 4-2). The index is the place in the table. -/
structure SliceRec where
  start : Nat
  length : Nat
  gov : Nat
  state : SliceState
  flags : BitVec 16
  eAct : Nat
  heatScale : Option Nat
  eTgt : Option Nat
  specific : Option Nat
  deviation : Option Int
  quarterTurns : Nat
  pulses : Nat
  leaveTime : Option Nat
  enterTime : Option Nat
  transferTime : Option Nat
  quenchTime : Option Nat
  ringMask : Byte
  pattern : Nat
  deriving DecidableEq, Repr

/-- The slice tracker (Table 4-1). `flooded` is the range of the flood marking; `lastDone` the last slice made DONE by
leaving quench (R109). -/
structure SltState where
  table : List SliceRec
  count : Nat
  transit : List Nat
  underCoil : Option Nat
  atQuench : Option Nat
  mark : Option Nat
  unassigned : Nat
  floodStatus : FloodStatus
  flooded : List Nat
  lastDone : Option Nat
  deriving DecidableEq, Repr

/-- A quench circuit (Table 5-1). `pulses` counts since the last flow update, `window` holds the counts of the earlier
10 ms periods, latest first; `lowRaised` marks FLOW_LOW on FLOOD raised for this opening (R108). -/
structure CircuitRec where
  state : CircuitState
  demand : Bool
  output : Bool
  readback : Option Bool
  disagree : Nat
  agree : Nat
  flow : Nat
  check : FlowCheck
  established : Bool
  riseElapsed : Nat
  flowLow : Bool
  lowRaised : Bool
  pulses : Nat
  window : List Nat
  deriving DecidableEq, Repr

/-- The quench controller (Tables 5-1 and 5-3). -/
structure QchState where
  ringA : CircuitRec
  ringB : CircuitRec
  flood : CircuitRec
  patternCount : Nat
  patternTravel : Nat
  patternMark : Option Int
  deriving DecidableEq, Repr

/-- The capture of the first-fault record (R151). -/
structure Capture where
  kind : Cause
  item : CircuitItem
  scanState : ScanState
  position : Nat
  highMark : Option Nat
  slice : Option Nat
  vertex : Option Nat
  clock : Nat
  orderTag : Option Nat
  deriving DecidableEq, Repr

/-- The permit and fault monitor (Table 8-1). `counts` holds the 19 counts in the order of Table 8-3. -/
structure PfmState where
  permits : PerPermit Bool
  permitStable : PerPermit Nat
  permitInputs : PerPermit Bool
  selector : Selector
  selectorStable : Nat
  decoded : Selector
  selSetup : Bool
  selAuto : Bool
  codeInvalid : Bool
  firstFault : Option Capture
  counts : List Nat
  resetCause : ResetCause
  lampReady : Bool
  lampFault : LampPattern
  lampPhase : Nat
  resultGood : Bool
  resultReject : Bool
  deriving DecidableEq, Repr

/-- The machine. `startup` says that the start-up phase runs (R183); `freeCount` counts the free values drawn (log
entry 6); `pending` is the queue of waiting commands. -/
structure State where
  startup : Bool
  lif : LifState
  pst : PstState
  ord : OrdState
  seq : SeqState
  spg : SpgState
  axc : AxcState
  cnv : CnvState
  slt : SltState
  qch : QchState
  pfm : PfmState
  freeCount : Nat
  pending : List Instr
  deriving DecidableEq, Repr

/-- Why a step stops the model: no command of this block does, so there is no reason to name. -/
inductive Fault where
  deriving DecidableEq, Repr

/-- Why a step is refused. -/
inductive Refusal where
  /-- Raised by exec's arm of a command that has no meaning yet. Safe: nothing is claimed of it. No arm of this model
  answers it. -/
  | notModelled (mnemonic : String)
  deriving DecidableEq, Repr

/-- A port after any reset (Table 10-1). -/
def PortState.reset : PortState where
  collecting := false
  partialFrame := []
  idleMs := 0
  buffer := []
  inService := none
  tx := []
  waiting := none
  mask := 0
  overrun := false
  dropped := false

/-- A slot as it leaves the factory: EMPTY, revision 0, its CRC matching (R7, R16). -/
def Slot.factory : Slot := ⟨.empty, 0, Profile.none, slotCrc .empty 0 Profile.none⟩

/-- The configuration record's stored copy as it leaves the factory: none written (R19). -/
def StoredConfig.factory : StoredConfig := ⟨false, false, ConfigRecord.defaults, 0⟩

/-- A circuit after any reset (Table 5-1). -/
def CircuitRec.reset : CircuitRec where
  state := .closed
  demand := false
  output := false
  readback := none
  disagree := 0
  agree := 0
  flow := 0
  check := .idle
  established := false
  riseElapsed := 0
  flowLow := false
  lowRaised := false
  pulses := 0
  window := []

/-- LIF after any reset (Table 10-1). -/
def LifState.reset : LifState := ⟨PortState.reset, PortState.reset, none, false⟩

/-- PST as from the factory, right after a reset: staging empty, channel idle (R17). -/
def PstState.reset : PstState where
  slots := List.replicate 32 Slot.factory
  channel := none
  stagedHeader := none
  stagedVertices := List.replicate 96 Vertex.zero
  supplied := 0
  stored := StoredConfig.factory
  inForce := ConfigRecord.defaults
  source := .defaults

/-- ORD after any reset (Table 9-1). -/
def OrdState.reset : OrdState where
  queue := []
  running := none
  working := none
  patches := List.replicate 4 none
  summary := none
  startLevel := false
  startStable := 0
  startInput := false

/-- SEQ after any reset (Table 3-1). -/
def SeqState.reset : SeqState where
  scanState := .idle
  kind := .production
  startSelector := none
  clock := 0
  dwellVertex := none
  timer := none
  phase := none
  abortCause := none
  abortAction := none
  abortState := none
  escalation := none

/-- SPG after any reset (Table 2-1). -/
def SpgState.reset : SpgState where
  span := none
  scale := 1000
  pendingScale := none
  trim := .acquiring
  lastCorr := 0
  holdTime := 0
  pPrev := 0
  pCmd := 0
  dacCode := 0
  plannedSpeed := none

/-- AXC after any reset (Table 6-1). What is read at start-up stands at 0 or CLOSED until then, log entry 8. -/
def AxcState.reset : AxcState where
  travel := .stopped
  moveKind := none
  target := none
  cmdPos := 0
  direction := .up
  vCmd := 0
  holdSpeed := none
  nextDwell := none
  x := 0
  highMark := none
  restCount := 0
  waitTime := 0
  waiting := .notWaiting
  movePhase := .running
  stallRef := 0
  stallTimer := 0
  upperOpen := false
  lowerOpen := false
  upperStable := 0
  lowerStable := 0
  upperInput := false
  lowerInput := false
  followOn := false
  reversalOn := false
  posReport := false
  bandReport := false
  steps := 0
  spindleCmd := 0
  spindleSpeed := 0
  sincePulse := none
  lastPeriod := none
  usInMs := 0
  rotation := .off
  rotationTimer := 0

/-- CNV after any reset (Table 7-1). -/
def CnvState.reset : CnvState where
  state := .off
  enable := false
  setpoint := 0
  deliveredPower := 0
  deliveredCode := 0
  startTimer := none
  stopTimer := none
  stuck := false
  deviationTimer := 0
  convOn := false
  convFault := false
  onStable := 0
  faultStable := 0
  onInput := false
  faultInput := false
  pMeas := 0
  tMeas := 0
  tValid := false
  coolant := none
  derate := 0
  hot := false

/-- SLT after any reset (Table 4-1). -/
def SltState.reset : SltState where
  table := []
  count := 0
  transit := []
  underCoil := none
  atQuench := none
  mark := none
  unassigned := 0
  floodStatus := .unmarked
  flooded := []
  lastDone := none

/-- QCH after any reset (Tables 5-1 and 5-3). -/
def QchState.reset : QchState :=
  ⟨CircuitRec.reset, CircuitRec.reset, CircuitRec.reset, 0, 0, none⟩

/-- PFM after a reset with the given cause (Table 8-1). -/
def PfmState.reset (cause : ResetCause) : PfmState where
  permits := permitAll false
  permitStable := permitAll 0
  permitInputs := permitAll false
  selector := .locked
  selectorStable := 0
  decoded := .locked
  selSetup := false
  selAuto := false
  codeInvalid := false
  firstFault := none
  counts := List.replicate 19 0
  resetCause := cause
  lampReady := false
  lampFault := .off
  lampPhase := 0
  resultGood := false
  resultReject := false

/-- The machine right after its first reset, the supply having risen (R159), with the nonvolatile content of the
factory, the start-up phase running, nothing waiting. Log entry 7. -/
def State.reset : State where
  startup := true
  lif := LifState.reset
  pst := PstState.reset
  ord := OrdState.reset
  seq := SeqState.reset
  spg := SpgState.reset
  axc := AxcState.reset
  cnv := CnvState.reset
  slt := SltState.reset
  qch := QchState.reset
  pfm := PfmState.reset .powerOn
  freeCount := 0
  pending := []

/-- What a command's meaning answers. -/
abbrev Result := Host.Outcome State Fault Refusal

end Sys2Proof.Machine
end

