-- ==== Sys2Proof/Machine/Ops.lean ====
section
/-! DEFINITION. The named operations over the state that every block uses: block updates, places of ports, circuits and
slots, notices (R179), the free order of events, fault taking (R150 to R153) and the indicators (R156, R157). -/

namespace Sys2Proof.Machine

/-! ### Block updates -/

def State.onLif (s : State) (f : LifState → LifState) : State := { s with lif := f s.lif }
def State.onPst (s : State) (f : PstState → PstState) : State := { s with pst := f s.pst }
def State.onOrd (s : State) (f : OrdState → OrdState) : State := { s with ord := f s.ord }
def State.onSeq (s : State) (f : SeqState → SeqState) : State := { s with seq := f s.seq }
def State.onSpg (s : State) (f : SpgState → SpgState) : State := { s with spg := f s.spg }
def State.onAxc (s : State) (f : AxcState → AxcState) : State := { s with axc := f s.axc }
def State.onCnv (s : State) (f : CnvState → CnvState) : State := { s with cnv := f s.cnv }
def State.onSlt (s : State) (f : SltState → SltState) : State := { s with slt := f s.slt }
def State.onQch (s : State) (f : QchState → QchState) : State := { s with qch := f s.qch }
def State.onPfm (s : State) (f : PfmState → PfmState) : State := { s with pfm := f s.pfm }
def State.setStartup (s : State) (b : Bool) : State := { s with startup := b }
def State.setPending (s : State) (cs : List Instr) : State := { s with pending := cs }
def State.bumpFree (s : State) : State := { s with freeCount := s.freeCount + 1 }

/-! ### Places -/

/-- A port's items. -/
def LifState.port (l : LifState) : Port → PortState
  | .line => l.line
  | .service => l.service

/-- A port's items changed, the other port's kept (R174). -/
def LifState.onPort (l : LifState) (p : Port) (f : PortState → PortState) : LifState :=
  match p with
  | .line => { l with line := f l.line }
  | .service => { l with service := f l.service }

/-- A circuit's items. -/
def QchState.circuit (q : QchState) : Circuit → CircuitRec
  | .ringA => q.ringA
  | .ringB => q.ringB
  | .flood => q.flood

/-- One circuit's items changed. -/
def QchState.onCircuit (q : QchState) (c : Circuit) (f : CircuitRec → CircuitRec) : QchState :=
  match c with
  | .ringA => { q with ringA := f q.ringA }
  | .ringB => { q with ringB := f q.ringB }
  | .flood => { q with flood := f q.flood }

/-- Slot n, 1 to 32 (R7). -/
def PstState.slot (p : PstState) (n : Nat) : Slot := p.slots.getD (n - 1) Slot.factory

/-- Slot n replaced. -/
def PstState.setSlot (p : PstState) (n : Nat) (v : Slot) : PstState := { p with slots := p.slots.set (n - 1) v }

/-- A slice record by index. An index past the table is never asked for; it reads as an empty record. -/
def SltState.slice? (t : SltState) (i : Nat) : Option SliceRec := t.table[i]?

/-- One slice record changed. -/
def SltState.onSlice (t : SltState) (i : Nat) (f : SliceRec → SliceRec) : SltState :=
  { t with table := t.table.modify i f }

/-! ### What other blocks read -/

/-- A scan is running while the scan state is neither IDLE nor HALTED (R11, R147). -/
def ScanState.isRunning : ScanState → Bool
  | .idle | .halted => false
  | .approach | .ignite | .dwell | .scan | .runout | .soak | .complete | .quenchOut | .flood => true

def State.scanRunning (s : State) : Bool := s.seq.scanState.isRunning

/-- The heat states (Table 0-5). -/
def ScanState.isHeat : ScanState → Bool
  | .dwell | .scan => true
  | .idle | .approach | .ignite | .runout | .soak | .complete | .quenchOut | .flood | .halted => false

/-- The heat-permit group (Table 8-2). -/
def PfmState.heatPermits (p : PfmState) : Bool :=
  p.permits.coolantFlowOk && p.permits.guardClosed && p.permits.estopClear && p.permits.convReady

/-- The motion-permit group (Table 8-2). -/
def PfmState.motionPermits (p : PfmState) : Bool :=
  p.permits.guardClosed && p.permits.estopClear && p.permits.driveReady

/-- The quench permit (Table 8-2). -/
def PfmState.quenchPermit (p : PfmState) : Bool := p.permits.quenchPressureOk

/-- All six filtered permits present (R156). -/
def PfmState.allPermits (p : PfmState) : Bool := p.heatPermits && p.motionPermits && p.quenchPermit

/-- The configuration record in force. -/
def State.config (s : State) : ConfigRecord := s.pst.inForce

/-- The working profile's content; empty while there is none (R168). -/
def State.profile (s : State) : Profile := (s.ord.working.map Working.profile).getD Profile.none

def Profile.vertex (p : Profile) (i : Nat) : Vertex := p.vertices.getD i Vertex.zero

/-- Index of the last vertex. -/
def Profile.lastIndex (p : Profile) : Nat := p.vertices.length - 1

/-- Position of the first vertex, x_0. -/
def Profile.first (p : Profile) : Nat := (p.vertex 0).position

/-- Position of the last vertex, x_last. -/
def Profile.last (p : Profile) : Nat := (p.vertex p.lastIndex).position

/-- The high mark h as a number; 0 while there is none. -/
def State.high (s : State) : Nat := s.axc.highMark.getD 0

/-- The index of the vertex whose span holds a position: the last vertex below the last one that stands at or under it
(R1). -/
def governing (vs : List Vertex) (pos : Nat) : Nat :=
  ((vs.dropLast.takeWhile fun v => v.position ≤ pos).length) - 1

/-! ### The free order of several events -/

/-- One item put at a free place of a list, with the count of free values after it (log entry 6). -/
def freeInsert {α : Type} (a : α) : List α → Nat → List α × Nat
  | [], n => ([a], n)
  | b :: bs, n =>
    if Config.firstOfTwo n then (a :: b :: bs, n + 1)
    else (b :: (freeInsert a bs (n + 1)).1, (freeInsert a bs (n + 1)).2)

/-- A list in a free order: every order is one of the outcomes (log entry 6). -/
def freeOrder {α : Type} : List α → Nat → List α × Nat
  | [], n => ([], n)
  | a :: as, n => freeInsert a (freeOrder as n).1 (freeOrder as n).2

/-- Events run one after the other. -/
def runEvents : List (State → State) → State → State
  | [], s => s
  | e :: es, s => runEvents es (e s)

/-- The count of free values set. -/
def State.setFree (s : State) (n : Nat) : State := { s with freeCount := n }

/-- Events of one moment that the manual lets be taken in any order (log entry 6). -/
def inAnyOrder (es : List (State → State)) (s : State) : State :=
  runEvents (freeOrder es s.freeCount).1 (s.setFree (freeOrder es s.freeCount).2)

/-! ### Notices -/

/-- How many frames a port's transmit queue holds (Table 10-1). -/
def txRoom : Nat := 8

/-- LIF offers a notice to one port (R179): sent where the mask holds the kind, dropped with the flag set where the
transmit queue is full. -/
def PortState.offer (p : PortState) (k : NoticeKind) (payload : List Byte) : PortState :=
  if p.mask.getLsbD k.bit then
    if p.tx.length < txRoom then { p with tx := p.tx ++ [⟨0, byteOf k.code, payload⟩] }
    else { p with dropped := true }
  else p

/-- A notice is offered to each port independently (R179). -/
def notice (k : NoticeKind) (payload : List Byte) (s : State) : State :=
  s.onLif fun l => { l with line := l.line.offer k payload, service := l.service.offer k payload }

/-! ### Indicators -/

/-- The condition of LAMP_READY (R156). -/
def State.lampReadyNow (s : State) : Bool :=
  s.seq.scanState == .idle && s.pfm.allPermits && s.pfm.selector != .locked && !s.ord.queue.isEmpty
    && s.pfm.firstFault.isNone

/-- The pattern of LAMP_FAULT (R157). -/
def State.lampFaultNow (s : State) : LampPattern :=
  if s.pfm.firstFault.isSome then .fast
  else if s.seq.scanState == .quenchOut || s.seq.scanState == .flood then .slow
  else .off

/-- PFM re-forms LAMP_READY and LAMP_FAULT; a change of pattern starts an on period, the same pattern keeps its phase
(R156, R157). -/
def reformLamps (s : State) : State :=
  s.onPfm fun p =>
    { p with
      lampReady := s.lampReadyNow
      lampFault := s.lampFaultNow
      lampPhase := if s.lampFaultNow = p.lampFault then p.lampPhase else 0 }

/-- The period of a flash pattern in ms (R157). -/
def LampPattern.period : LampPattern → Nat
  | .off => 1
  | .fast => 250
  | .slow => 1000

/-- Whether the LAMP_FAULT output is on: the first half of each period (R157). -/
def PfmState.lampFaultOn (p : PfmState) : Bool :=
  match p.lampFault with
  | .off => false
  | .fast => decide (p.lampPhase < 125)
  | .slow => decide (p.lampPhase < 500)

/-! ### Faults -/

/-- A fault as its source reports it: kind, circuit item, and the scan state as the source found it (R150). -/
structure FaultReport where
  kind : Cause
  item : CircuitItem
  scanState : ScanState
  deriving DecidableEq, Repr

/-- The capture PFM fills when it takes a report (R151). -/
def captureOf (r : FaultReport) (s : State) : Capture where
  kind := r.kind
  item := r.item
  scanState := r.scanState
  position := s.axc.x
  highMark := s.axc.highMark
  slice := s.slt.underCoil
  vertex := s.spg.span.map ActiveSpan.index
  clock := s.seq.clock
  orderTag := s.ord.running.map Order.tag

/-- The place of a fault kind in the summary, the row order of Table 8-3. -/
def Cause.row (k : Cause) : Nat := k.code - 1

/-- A count that rises by 1 and stays at 255 (R152). -/
def countUp (n : Nat) : Nat := min 255 (n + 1)

/-- The count of one fault kind. -/
def PfmState.count (p : PfmState) (k : Cause) : Nat := p.counts.getD k.row 0

/-- The FAULT notice of a fault taken (R153, Table 11-11). -/
def faultNoticePayload (r : FaultReport) (clock count : Nat) (captured : Bool) : List Byte :=
  [byteOf r.kind.code, byteOf r.item.code, byteOf r.scanState.code] ++ beBytes 4 clock
    ++ [byteOf count, flagByte captured]

/-- PFM takes a fault: capture, count, notice, in that order, with the lamps re-formed at the capture (R150). -/
def pfmTake (r : FaultReport) (s : State) : State :=
  let captured := s.pfm.firstFault.isNone
  let s := if captured then reformLamps (s.onPfm fun p => { p with firstFault := some (captureOf r s) }) else s
  let s := s.onPfm fun p => { p with counts := p.counts.modify r.kind.row countUp }
  notice .fault (faultNoticePayload r s.seq.clock (s.pfm.count r.kind) captured) s

end Sys2Proof.Machine
end

