-- ==== Sys2Proof/Machine/ProfileCheck.lean ====
section
/-! DEFINITION. The profile check (R3 to R6), the range test of a configuration record (R18), text fields (R4, R163)
and the binding of the working profile (R168). -/

namespace Sys2Proof.Machine

/-- A printable character (0x20 to 0x7E). -/
def printable (b : Byte) : Bool := decide (0x20 ≤ b.toNat) && decide (b.toNat ≤ 0x7E)

/-- A text field: printable characters, and once a position holds 0 every later one holds 0 (R4). -/
def textOk : List Byte → Bool
  | [] => true
  | b :: bs => if b = 0 then bs.all (· == 0) else printable b && textOk bs

/-- A value in a range. -/
def inRange (lo hi n : Nat) : Bool := decide (lo ≤ n) && decide (n ≤ hi)

/-- The first test of a list that does not pass. -/
def firstFailing {α : Type} : List (Bool × α) → Option α
  | [] => none
  | (ok, code) :: rest => if ok then firstFailing rest else some code

/-- The transit capacity of a pitch and quench offset (Table 1-1 note 2). -/
def transitCapacity (pitch offset : Nat) : Nat := ceilDiv offset pitch + 1

/-- The slice count N (R6). -/
def Profile.sliceCount (p : Profile) : Nat := ceilDiv (p.last - p.first) p.header.pitch

/-- The header tests in the row order of Table 1-1 (R4). -/
def headerTests (c : ConfigRecord) (h : Header) : List (Bool × CheckCode) :=
  [ (textOk h.name, .name),
    (inRange 50 800 h.pitch, .pitch),
    (inRange (2 * h.pitch) 20000 h.quenchOffset, .quenchOffset),
    (decide (transitCapacity h.pitch h.quenchOffset ≤ 64), .transitCapacity),
    (inRange 100 20000 h.maxTransfer, .transferTime),
    (inRange 10 500 h.tolerance, .tolerance),
    (inRange 1 c.rating h.ceiling, .ceiling),
    (decide (h.floor ≤ h.ceiling), .floor),
    (decide (h.soakTime ≤ 30000), .soakTime),
    (policyKnown h.policy, .policy),
    (h.patterns.all fun p => inRange 1 32 p.period, .patternPeriod) ]

/-- The tests of one vertex in the row order of Table 1-2 (R5): `n` vertices in all, this one at index i, the one below
it at `prev`. -/
def vertexTests (c : ConfigRecord) (h : Header) (n i : Nat) (prev : Option Nat) (v : Vertex) :
    List (Bool × CheckCode) :=
  [ (decide (v.position ≤ positionMax), .position),
    (match prev with
      | none => true
      | some q => decide (q + 100 ≤ v.position), .spacing),
    (decide (v.plan.power ≤ c.rating), .vtxPower),
    (inRange 50 5000 v.plan.speed, .vtxSpeed),
    (inRange 10 600 v.plan.spindle, .spindle),
    (decide (v.plan.dwell ≤ 60000), .dwell),
    (decide (i + 1 ≠ n) || decide (v.plan.dwell = 0), .lastDwell),
    (decide (i = 0) || decide (i + 1 = n) || decide (v.plan.dwell < h.maxTransfer), .dwellExceedsTransfer),
    (shapeKnown v.plan.shape, .shape),
    (decide (v.plan.tSet = 0) || inRange 600 1100 v.plan.tSet, .trimTarget),
    (decide ((v.plan.tSet = 0) ↔ (v.plan.alpha = 0)), .trimIncomplete),
    (maskHas v.plan.ringMask .ringA || maskHas v.plan.ringMask .ringB, .ringMask),
    (decide (v.plan.pattern ≤ 4), .pattern) ]

/-- The vertex tests, vertex by vertex in increasing index (R3). -/
def checkVertices (c : ConfigRecord) (h : Header) (n : Nat) : Nat → Option Nat → List Vertex → Option (CheckCode × Nat)
  | _, _, [] => none
  | i, prev, v :: vs =>
    match firstFailing (vertexTests c h n i prev v) with
    | some code => some (code, i)
    | none => checkVertices c h n (i + 1) (some v.position) vs

/-- The whole-profile tests in the row order of Table 1-3 (R6). -/
def wholeTests (c : ConfigRecord) (p : Profile) : List (Bool × CheckCode) :=
  [ (decide (p.sliceCount ≤ 1024), .sliceCount),
    (decide (p.last + p.header.quenchOffset ≤ c.travelLength), .travelLength) ]

/-- The profile check: none when every test passes, else the check code and the vertex index (R3). -/
def profileCheck (c : ConfigRecord) (p : Profile) : Option (CheckCode × Nat) :=
  if inRange 2 96 p.vertices.length then
    match firstFailing (headerTests c p.header) with
    | some code => some (code, 255)
    | none =>
      match checkVertices c p.header p.vertices.length 0 none p.vertices with
      | some r => some r
      | none => (firstFailing (wholeTests c p)).map fun code => (code, p.lastIndex)
  else some (.vertexCount, 255)

/-- The fields of a configuration record against their ranges, numbered as in Table 1-5; a warn temperature not below
the trip temperature fails at field 17 (R18). -/
def configTests (c : ConfigRecord) : List (Bool × Nat) :=
  [ (inRange 100 6000 c.rating, 1),
    (inRange 100 6000 c.fullScale, 2),
    (inRange 10000 250000 c.travelLength, 3),
    (inRange 50 5000 c.approachSpeed, 4),
    (inRange 50 2000 c.jogSpeed, 5),
    (inRange 1 500 c.accel, 6),
    (inRange 10 2000 c.followingLimit, 7),
    (inRange 100 5000 c.stallTime, 8),
    (inRange 5 200 c.reversalLimit, 9),
    (inRange 5 25 c.rotationBand, 10),
    (inRange 1 8 c.pulsesPerRev, 11),
    (inRange 0 255 c.trimGain, 12),
    (inRange 0 1000 c.trimLimit, 13),
    (inRange 1 500 c.slew, 14),
    (inRange 10 1000 c.deviationLimit, 15),
    (inRange 0 1000 c.coolantWarn, 16),
    (inRange 0 1000 c.coolantTrip && decide (c.coolantWarn < c.coolantTrip), 17),
    (inRange 1 1000 c.flowPulsesPerLitre, 18),
    (inRange 0 500 c.minFlowA, 19),
    (inRange 0 500 c.minFlowB, 20),
    (inRange 0 500 c.minFlowFlood, 21),
    (inRange 50 2000 c.flowRiseTime, 22),
    (inRange 500 60000 c.floodTime, 23) ]

/-- The number of the first failing field, none when every field lies in its range (R18). -/
def configCheck (c : ConfigRecord) : Option Nat := firstFailing (configTests c)

/-! ### Binding -/

/-- Why a candidate working profile is refused (R168). -/
inductive BindRefusal where
  | profileInvalid (code : CheckCode) (vertex : Nat)
  | patchInvalid (code : CheckCode) (vertex : Nat) (patch : Nat)
  deriving DecidableEq, Repr

/-- The vertices with the enabled patches that name the profile applied in patch slot order, and the replaced vertices
with their patch slots; or the patch slot whose vertex index is not below the vertex count (R168, step 2). `k` is the
number of the first patch slot of the list. -/
def applyPatches (profile : Nat) : Nat → List (Option Patch) → List Vertex → List (Nat × Nat) →
    Except Nat (List Vertex × List (Nat × Nat))
  | _, [], vs, done => .ok (vs, done)
  | k, none :: rest, vs, done => applyPatches profile (k + 1) rest vs done
  | k, some p :: rest, vs, done =>
    if p.profile = profile then
      if p.vertex < vs.length then
        applyPatches profile (k + 1) rest (vs.modify p.vertex fun v => { v with plan := p.plan })
          (done ++ [(p.vertex, k)])
      else .error k
    else applyPatches profile (k + 1) rest vs done

/-- The patch slot that replaced a vertex. -/
def replacedBy (replaced : List (Nat × Nat)) (vertex : Nat) : Option Nat :=
  (replaced.find? fun r => r.1 == vertex).map Prod.snd

/-- Binding: the candidate working profile of an order, or the refusal (R168). -/
def bindOrder (c : ConfigRecord) (slot : Slot) (patches : List (Option Patch)) (o : Order) :
    Except BindRefusal Working :=
  match applyPatches o.profile 1 patches slot.profile.vertices [] with
  | .error k => .error (.patchInvalid .vertexCount 255 k)
  | .ok (vs, replaced) =>
    let cand : Profile := ⟨slot.profile.header, vs⟩
    match profileCheck c cand with
    | none => .ok ⟨cand, o.profile, slot.revision, replaced⟩
    | some (code, i) =>
      match replacedBy replaced i with
      | some k => if code = .sliceCount ∨ code = .travelLength then .error (.profileInvalid code i)
                  else .error (.patchInvalid code i k)
      | none => .error (.profileInvalid code i)

end Sys2Proof.Machine
end

