-- ==== Sys2Proof/Machine/Flags.lean ====
section
/-! DEFINITION. Slice flags (Table 4-5) and the evaluation that decides the energy flags (R85). -/

namespace Sys2Proof.Machine

/-- The flag word with one flag. -/
def SliceFlag.word (f : SliceFlag) : BitVec 16 := 1#16 <<< f.bit

/-- Whether a flag word carries a flag. -/
def hasFlag (w : BitVec 16) (f : SliceFlag) : Bool := w.getLsbD f.bit

/-- A flag once set stays set (R86: found already set, it changes nothing). -/
def setFlag (w : BitVec 16) (f : SliceFlag) : BitVec 16 := w ||| f.word

/-- Only R91 takes a flag away. -/
def clearFlag (w : BitVec 16) (f : SliceFlag) : BitVec 16 := w &&& ~~~f.word

/-- A record with a flag set. -/
def SliceRec.flag (r : SliceRec) (f : SliceFlag) : SliceRec := { r with flags := setFlag r.flags f }

/-- A record with a flag set when a condition holds. -/
def SliceRec.flagIf (r : SliceRec) (c : Bool) (f : SliceFlag) : SliceRec := if c then r.flag f else r

/-- The end of a slice: its start plus its length. -/
def SliceRec.endPos (r : SliceRec) : Nat := r.start + r.length

/-- The specific energy in J/mm, saturating (R85). -/
def specificEnergy (eAct length : Nat) : Nat := min top16 (halfUp (10 * eAct) length)

/-- The deviation in per mille, limited to −1000 to +32 767 (R85). -/
def energyDeviation (eAct eTgt : Nat) : Int :=
  clampInt (-1000) 32767 (halfAway (1000 * ((eAct : Int) - eTgt)) eTgt)

/-- The deviation of a slice, absent where the target is absent or 0 (R85). -/
def SliceRec.evalDeviation (r : SliceRec) : Option Int :=
  match r.eTgt with
  | none => none
  | some t => if t = 0 then none else some (energyDeviation r.eAct t)

/-- The energy flags of a deviation against a tolerance; ±tolerance sets neither (R85). -/
def SliceRec.energyFlags (r : SliceRec) (tolerance : Nat) (dev : Option Int) : SliceRec :=
  match dev with
  | none => r
  | some d => (r.flagIf (decide (d < -(tolerance : Int))) .energyLow).flagIf (decide ((tolerance : Int) < d)) .energyHigh

/-- Evaluation at the event that makes a slice DONE (R85). A dry scan evaluates nothing. -/
def SliceRec.evaluate (r : SliceRec) (kind : ScanKind) (tolerance : Nat) : SliceRec :=
  match kind with
  | .dry => r
  | .production =>
    { r with specific := some (specificEnergy r.eAct r.length), deviation := r.evalDeviation }.energyFlags tolerance
      r.evalDeviation

/-- The eleven flags in bit order. -/
def allFlags : List SliceFlag :=
  [.energyLow, .energyHigh, .clamped, .noTrim, .fewTurns, .lateQuench, .flowLow, .heatCut, .unquenched,
    .floodQuenched, .patched]

/-- For each flag the number of slices that carry it (R94). -/
def flagCounts (table : List SliceRec) : List Nat :=
  allFlags.map fun f => (table.filter fun r => hasFlag r.flags f).length

end Sys2Proof.Machine
end

