-- ==== Sys2Proof/Machine/Axis.lean ====
section
/-! DEFINITION. The axis controller's own operations (chapter 6): moves, stops, the speed rule, the high mark, rotation.
None of them reports to SEQ; Sequence.lean and AxisCommands.lean do. -/

namespace Sys2Proof.Machine

/-! ### Moves and stops (R117, R121) -/

/-- A position in pu as a commanded position in 0.001 pu. -/
def milli (pu : Nat) : Nat := pu * 1000

/-- The distance from the commanded position to a target, in 0.001 pu, whichever way it lies. -/
def AxcState.distance (a : AxcState) (target : Nat) : Nat := absDiff (milli target) a.cmdPos

/-- The direction from the commanded position toward a target. -/
def AxcState.toward (a : AxcState) (target : Nat) : Direction := if a.cmdPos < milli target then .up else .down

/-- Whether a target lies ahead in the direction of travel. -/
def AxcState.ahead (a : AxcState) (target : Nat) : Bool :=
  match a.direction with
  | .up => decide (a.cmdPos < milli target)
  | .down => decide (milli target < a.cmdPos)

/-- The limit switch at the end of travel in a direction (R126). -/
def Direction.limit : Direction → LimitSwitch
  | .up => .upper
  | .down => .lower

/-- Whether a limit switch is OPEN, filtered. -/
def AxcState.isOpen (a : AxcState) : LimitSwitch → Bool
  | .upper => a.upperOpen
  | .lower => a.lowerOpen

/-- The switch that forbids a motion about to begin in a direction, if it is OPEN (R126). -/
def AxcState.blockedBy (a : AxcState) (d : Direction) : Option LimitSwitch :=
  if a.isOpen d.limit then some d.limit else none

/-- The braking condition of R117 and R120: 2000·A·d is at or below v² + 2·A·v, with the distance in 0.001 pu. -/
def mustBrake (accel milliDist v : Nat) : Bool := decide (2 * accel * milliDist ≤ v * v + 2 * accel * v)

/-- Whether a motion would be forbidden, with the axis as it then stands. -/
structure MotionStart where
  axc : AxcState
  blocked : Option LimitSwitch
  deriving DecidableEq, Repr

/-- A new motion toward a target from v_cmd 0 (R117). At 5 pu or less it sets no direction and begins its end-of-move
wait at once. -/
def AxcState.startMotion (a : AxcState) (kind : MoveKind) (target : Nat) : MotionStart :=
  if a.distance target ≤ 5000 then
    ⟨{ a with
        travel := .movingTo, moveKind := some kind, target := some target, vCmd := 0, movePhase := .running,
        waiting := .timed, waitTime := 0 }, none⟩
  else
    ⟨{ a with
        travel := .movingTo, moveKind := some kind, target := some target, vCmd := 0, movePhase := .running,
        waiting := .notWaiting, waitTime := 0, direction := a.toward target }, a.blockedBy (a.toward target)⟩

/-- A target given to the axis in whatever motion it is: from rest a new motion; in motion it runs on where the target
lies ahead and the braking condition is not yet met, else it first brakes to 0 (R117). -/
def AxcState.giveTarget (a : AxcState) (accel : Nat) (kind : MoveKind) (target : Nat) : MotionStart :=
  if a.vCmd = 0 then a.startMotion kind target
  else
    ⟨{ a with
        travel := .movingTo, moveKind := some kind, target := some target, waiting := .notWaiting, waitTime := 0,
        movePhase :=
          if a.ahead target && !mustBrake accel (a.distance target) a.vCmd then .running else .reversing }, none⟩

/-- The end-of-move wait of a stop begins (R115). -/
def AxcState.stopWait (a : AxcState) : AxcState :=
  { a with
    travel := .brakingTo, moveKind := some .stop, target := none, vCmd := 0, waiting := .timed, waitTime := 0 }

/-- A quick stop (R121): nothing while STOPPED, else v_cmd 0 and the end-of-move wait begins, in place of any stop or wait
already under way (log entry 20). -/
def AxcState.quickStop (a : AxcState) : AxcState := if a.travel = .stopped then a else a.stopWait

/-- A controlled stop (R121): nothing while STOPPED; from v_cmd 0 the wait begins at once. -/
def AxcState.controlledStop (a : AxcState) : AxcState :=
  if a.travel = .stopped then a
  else if a.vCmd = 0 then a.stopWait
  else
    { a with
      travel := .brakingTo, moveKind := some .stop, target := none, movePhase := .braking, waiting := .notWaiting,
      waitTime := 0 }

/-- A jog in progress ends in a quick stop (R118). -/
def AxcState.endJog (a : AxcState) : AxcState :=
  if a.travel = .movingTo ∧ a.moveKind = some .jog then a.quickStop else a

/-- TRACKING upward; from v_cmd 0 the direction output is set UP (R114, R119). -/
def AxcState.track (a : AxcState) : AxcState :=
  { a with
    travel := .tracking, moveKind := none, target := none, waiting := .notWaiting, waitTime := 0,
    direction := if a.vCmd = 0 then .up else a.direction }

/-- TRACKING at the hold speed, the greater of v_cmd and 50 (Table 6-2). -/
def AxcState.trackHold (a : AxcState) : AxcState := { a.track with holdSpeed := some (max a.vCmd 50) }

/-- The switch that forbids a TRACKING about to begin from rest (R126). -/
def AxcState.trackBlocked (a : AxcState) : Option LimitSwitch := if a.vCmd = 0 then a.blockedBy .up else none

/-- HOLDING, the move ended (R117, R120). Log entry 22. -/
def AxcState.hold (a : AxcState) : AxcState :=
  { a with travel := .holding, moveKind := none, target := none, vCmd := 0, waiting := .notWaiting, waitTime := 0 }

/-- Entry to STOPPED: the commanded position becomes x with no fraction (R115). -/
def AxcState.stop (a : AxcState) : AxcState :=
  { a with
    travel := .stopped, moveKind := none, target := none, vCmd := 0, waiting := .notWaiting, waitTime := 0,
    cmdPos := milli a.x }

/-- At rest (R115). -/
def AxcState.atRest (a : AxcState) : Bool := a.vCmd == 0 && a.restCount == 10

/-- In position at a target (R115). -/
def AxcState.inPosition (a : AxcState) (target : Nat) : Bool := a.atRest && decide (absDiff a.x target ≤ 5)

/-- AXC reports STOPPED (R115). -/
def AxcState.reportsStopped (a : AxcState) : Bool := a.travel == .stopped && a.spindleSpeed == 0

/-- The lowest vertex above an index with a dwell greater than 0, or none (Table 6-2, R120). -/
def nextDwellAbove (vs : List Vertex) (i : Nat) : Option Nat :=
  ((vs.drop (i + 1)).findIdx? fun v => decide (0 < v.plan.dwell)).map fun k => k + i + 1

/-! ### The encoder operand -/

/-- What reads the encoder at an operand: within 0 to 250 000 pu that position, above it a position the manual does not
state (log entry 13). -/
def withEncoder (encoder : Nat) (use : Nat → State → State) (s : State) : State :=
  if encoder ≤ positionMax then use encoder s else use (Config.strayPosition s.freeCount) s.bumpFree

/-! ### The speed rule of one axis update (R114 steps 5 and 6) -/

/-- v_cmd moved toward a speed by at most A. -/
def stepToward (accel v speed : Nat) : Nat :=
  if v ≤ speed then min speed (v + accel) else max speed (v - accel)

/-- v_cmd lowered by A, not below 50; a v_cmd of 50 or less is kept (R117). -/
def brakeSpeed (accel v : Nat) : Nat := if v ≤ 50 then v else max 50 (v - accel)

/-- The end of a move: the commanded position is at or past the target, or within 5 pu with v_cmd at or below 50
(R117). -/
def AxcState.moveEnds (a : AxcState) (target : Nat) : Bool :=
  !a.ahead target || (decide (a.distance target ≤ 5000) && decide (a.vCmd ≤ 50))

/-- v_cmd becomes 0 and the end-of-move wait begins (R115). -/
def AxcState.beginWait (a : AxcState) : AxcState := { a with vCmd := 0, waiting := .timed, waitTime := 0 }

/-- The braking and end parts of R117. -/
def AxcState.brakeOnto (a : AxcState) (accel target : Nat) : AxcState :=
  if a.moveEnds target then a.beginWait
  else { a with movePhase := .braking, vCmd := brakeSpeed accel a.vCmd }

/-- One update of a move to a target outside its wait (R117). In the update in which a braking for a turn reaches 0 the
new motion begins (log entry 21). -/
def AxcState.moveUpdate (a : AxcState) (accel speed target : Nat) (kind : MoveKind) : MotionStart :=
  match a.movePhase with
  | .reversing =>
    if a.vCmd ≤ accel then { a with vCmd := 0 }.startMotion kind target
    else ⟨{ a with vCmd := a.vCmd - accel }, none⟩
  | .braking => ⟨a.brakeOnto accel target, none⟩
  | .running =>
    if a.moveEnds target then ⟨a.beginWait, none⟩
    else if mustBrake accel (a.distance target) a.vCmd then ⟨a.brakeOnto accel target, none⟩
    else ⟨{ a with vCmd := stepToward accel a.vCmd speed }, none⟩

/-- One update of a controlled stop outside its wait (R121). -/
def AxcState.stopUpdate (a : AxcState) (accel : Nat) : AxcState :=
  if a.vCmd ≤ accel then a.beginWait else { a with vCmd := a.vCmd - accel }

/-- The distance to a dwell vertex above, 0 once passed (R120). -/
def AxcState.below (a : AxcState) (pos : Nat) : Nat := milli pos - a.cmdPos

/-- Step 6: the commanded position advances by v_cmd / 1000 pu, one step pulse at each whole pu crossed (R114). A whole pu
counts as crossed upward when it is reached and downward when it is left (log entry 46). -/
def AxcState.advance (a : AxcState) : AxcState :=
  let pos := match a.direction with
    | .up => min (milli positionMax) (a.cmdPos + a.vCmd)
    | .down => a.cmdPos - a.vCmd
  { a with cmdPos := pos, steps := absDiff (pos / 1000) (a.cmdPos / 1000) }

/-! ### Reading the encoder (R114 steps 1 to 3, R122) -/

/-- Whether the high mark follows x: from the end of approach until COMPLETE or HALTED (R122). -/
def ScanState.followsHigh : ScanState → Bool
  | .ignite | .dwell | .scan | .runout | .soak | .quenchOut | .flood => true
  | .idle | .approach | .complete | .halted => false

/-- Steps 1 to 3: x, the high mark, the rest count. -/
def AxcState.readEncoder (a : AxcState) (st : ScanState) (x : Nat) : AxcState :=
  { a with
    x := x
    highMark := if st.followsHigh then a.highMark.map (max x) else a.highMark
    restCount := if x = a.x then min 10 (a.restCount + 1) else 0 }

/-- A limit switch input one millisecond on (R126): the stable time of a level that differs from the filtered state. -/
def stableUp (top : Nat) (level filtered : Bool) (t : Nat) : Nat := if level = filtered then 0 else min top (t + 1)

/-! ### Rotation (R127 to R129) -/

/-- The states in which a change of spindle command starts the rotation check anew (R129). -/
def ScanState.checksRotation : ScanState → Bool
  | .approach | .ignite | .dwell | .scan | .runout | .quenchOut => true
  | .idle | .soak | .complete | .flood | .halted => false

/-- The rotation check becomes SETTLING with its timer at 0. -/
def AxcState.settle (a : AxcState) : AxcState := { a with rotation := .settling, rotationTimer := 0 }

/-- The rotation check becomes OFF. -/
def AxcState.rotationOff (a : AxcState) : AxcState := { a with rotation := .off, rotationTimer := 0 }

/-- The spindle command is set in a scan state; a change starts the check anew (R127, R129). -/
def AxcState.setSpindle (a : AxcState) (st : ScanState) (rpm : Nat) : AxcState :=
  if a.spindleCmd = rpm then a
  else if st.checksRotation then { a with spindleCmd := rpm }.settle
  else { a with spindleCmd := rpm }

/-- The spindle output code (R127). -/
def AxcState.spindleCode (a : AxcState) : Nat := halfUp (a.spindleCmd * 4095) 600

/-- The measured speed of a period in µs, limited to 65 535 (R128); a period of 0 is the limit (log entry 25). -/
def rotationSpeed (period pulses : Nat) : Nat :=
  if period * pulses = 0 then top16 else min top16 (halfUp 60000000 (period * pulses))

/-- The measured speed is in band; a command of 0 has no band (R129). -/
def AxcState.inBand (a : AxcState) (band : Nat) : Bool :=
  a.spindleCmd != 0 && decide (absDiff a.spindleSpeed a.spindleCmd * 100 ≤ band * a.spindleCmd)

/-- The measured speed between pulses once the time since the last pulse has run on (R128). -/
def AxcState.coasting (a : AxcState) (pulses since : Nat) : Nat :=
  if 12000000 ≤ since * pulses then 0
  else
    match a.lastPeriod with
    | none => a.spindleSpeed
    | some t => if t < since then rotationSpeed since pulses else a.spindleSpeed

/-- The rotation timing one millisecond on (R128). -/
def AxcState.rotationTick (a : AxcState) (pulses : Nat) : AxcState :=
  match a.sincePulse with
  | none => { a with usInMs := 0 }
  | some t =>
    let since := t + (1000 - a.usInMs)
    { a with usInMs := 0, sincePulse := some since, spindleSpeed := a.coasting pulses since }

/-- A rotation pulse at a place of the running millisecond (R128): at each pulse after the first, the period and the
speed; the time since the last pulse starts anew. -/
def AxcState.pulse (a : AxcState) (pulses micros : Nat) : AxcState :=
  match a.sincePulse with
  | none => { a with usInMs := micros, sincePulse := some 0 }
  | some t =>
    let period := t + (micros - a.usInMs)
    { a with
      usInMs := micros, sincePulse := some 0, lastPeriod := some period, spindleSpeed := rotationSpeed period pulses }

/-- The rotation check of one axis update (R129). A timer at 5000 or 201 marks the raising of ROTATION due (log entries
3 and 4). -/
def AxcState.rotationCheck (a : AxcState) (band : Nat) : AxcState :=
  match a.rotation with
  | .off => a
  | .settling =>
    if a.inBand band then { a with rotation := .inBand, rotationTimer := min 5000 (a.rotationTimer + 1) }
    else { a with rotationTimer := min 5000 (a.rotationTimer + 1) }
  | .inBand => if a.inBand band then a else { a with rotation := .outOfBand, rotationTimer := 0 }
  | .outOfBand =>
    if a.inBand band then { a with rotation := .inBand, rotationTimer := min 201 (a.rotationTimer + 1) }
    else { a with rotationTimer := min 201 (a.rotationTimer + 1) }

/-! ### Travel supervision (R124, R125) -/

/-- FOLLOWING holds (R124): not in STOPPED. -/
def AxcState.followingHolds (a : AxcState) (limit : Nat) : Bool :=
  a.travel != .stopped && decide (milli limit < absDiff a.cmdPos (milli a.x))

/-- REVERSAL holds, from the end of approach until COMPLETE or HALTED (R125). -/
def AxcState.reversalHolds (a : AxcState) (st : ScanState) (limit : Nat) : Bool :=
  match a.highMark with
  | none => false
  | some h => st.followsHigh && decide (a.x + limit < h)

/-- The stall check in TRACKING (R124): reference and timer after one update. -/
def AxcState.stallCheck (a : AxcState) (stallTime : Nat) : AxcState :=
  if a.travel = .tracking ∧ 50 ≤ a.vCmd then
    if a.stallRef + 10 ≤ a.x then { a with stallRef := a.x, stallTimer := 0 }
    else { a with stallTimer := min stallTime (a.stallTimer + 1) }
  else { a with stallRef := a.x, stallTimer := 0 }

/-- A STALL in TRACKING is due: the timer has reached the stall time, and stays there until the next axis update or until
the STALL is raised (R124; log entry 3). -/
def AxcState.stallDue (a : AxcState) (stallTime : Nat) : Bool :=
  decide (0 < a.stallTimer) && decide (stallTime ≤ a.stallTimer)

/-- The check at rest: the reference at x and the timer at 0 (R124). -/
def AxcState.rearmStall (a : AxcState) : AxcState := { a with stallRef := a.x, stallTimer := 0 }

/-- A STALL at the end of a move is due (R115). -/
def AxcState.waitDue (a : AxcState) (stallTime : Nat) : Bool :=
  a.waiting == .timed && decide (stallTime ≤ a.waitTime)

end Sys2Proof.Machine
end

