-- ==== Sys2Proof/Machine/Converter.lean ====
section
/-! DEFINITION. The converter channel's own operations (chapter 7): start, stop, deliveries, timers, measurements. -/

namespace Sys2Proof.Machine

/-- Time a start waits for CONV_ON, in ms (R133). -/
def startTime : Nat := 2000

/-- Time a stop waits for CONV_ON to fall, in ms (R133). -/
def stopTime : Nat := 1000

/-- How long a deviation must persist, in ms (R136). -/
def deviationTime : Nat := 500

/-- The start direction (R133): only in OFF. -/
def CnvState.start (c : CnvState) : CnvState :=
  match c.state with
  | .off =>
    { c with state := .starting, enable := true, setpoint := 0, startTimer := some startTime, stopTimer := none }
  | .starting | .running | .stopping => c

/-- Entry to STOPPING (R133, R138). -/
def CnvState.enterStopping (c : CnvState) : CnvState :=
  { c with
    state := .stopping, enable := false, setpoint := 0, startTimer := none, stopTimer := some stopTime, stuck := false,
    deviationTimer := 0 }

/-- The stop direction, and CNV's own stop at a cause (R133): only in STARTING or RUNNING. -/
def CnvState.stop (c : CnvState) : CnvState :=
  match c.state with
  | .starting | .running => c.enterStopping
  | .off | .stopping => c

/-- Entry to RUNNING (R134): the setpoint output becomes the code of the delivered command (R132). -/
def CnvState.run (c : CnvState) : CnvState :=
  { c with
    state := .running, enable := true, setpoint := c.deliveredCode, startTimer := none, deviationTimer := 0 }

/-- Whether a channel in STARTING finds the converter on (R134). -/
def CnvState.onSeen (c : CnvState) : Bool := c.state == .starting && c.convOn && !c.convFault

/-- Entry to OFF (R137). -/
def CnvState.enterOff (c : CnvState) : CnvState :=
  { c with state := .off, enable := false, setpoint := 0, startTimer := none, stopTimer := none, stuck := false }

/-- A delivery of SPG: recorded always, driven in RUNNING only (R132). -/
def CnvState.deliver (c : CnvState) (power code : Nat) : CnvState :=
  { c with
    deliveredPower := power, deliveredCode := code, setpoint := if c.state = .running then code else c.setpoint }

/-- The power sample of a feedback code (R139). -/
def powerSample (fullScale : Nat) (code : AdcCode) : Nat := halfUp (code.toNat * fullScale) 4095

/-- The pyrometer reading of a code, in °C (R140). -/
def pyrometerReading (code : AdcCode) : Nat := halfUp (code.toNat * 1400) 4095

/-- A valid reading lies in 500 to 1300 °C (R140). -/
def readingValid (t : Nat) : Bool := decide (500 ≤ t) && decide (t ≤ 1300)

/-- The coolant temperature of a code, in 0.1 °C (R141). -/
def coolantReading (code : AdcCode) : Nat := halfUp (code.toNat * 1000) 4095

/-- The derate limit of a coolant temperature (R141). -/
def derateLimit (c : ConfigRecord) (t : Nat) : Nat :=
  if t ≤ c.coolantWarn then c.rating
  else if t < c.coolantTrip then c.rating * (c.coolantTrip - t) / (c.coolantTrip - c.coolantWarn)
  else 0

/-- The inputs sampled at a channel update (R131). -/
def CnvState.sampleInputs (c : CnvState) (on fault : Bool) : CnvState :=
  { c with
    onInput := on, faultInput := fault, onStable := stableUp 5 on c.convOn c.onStable,
    faultStable := stableUp 5 fault c.convFault c.faultStable }

/-- The power sample taken (R139). -/
def CnvState.takeSample (c : CnvState) (cfg : ConfigRecord) (code : AdcCode) : CnvState :=
  { c with pMeas := powerSample cfg.fullScale code }

/-- The deviation check of one channel update in RUNNING (R136). -/
def CnvState.checkDeviation (c : CnvState) (cfg : ConfigRecord) : CnvState :=
  { c with
    deviationTimer :=
      if cfg.deviationLimit < absDiff c.pMeas c.deliveredPower then min deviationTime (c.deviationTimer + 1) else 0 }

/-- The timers and moves of the channel at a channel update, by state (R134, R136 to R138). An expired timer stands at
0 until its own command takes it (log entry 3). -/
def CnvState.channelTick (c : CnvState) (cfg : ConfigRecord) : CnvState :=
  match c.state with
  | .off => if c.convOn then c.enterStopping else c
  | .starting => { c with startTimer := c.startTimer.map fun t => t - 1 }
  | .running => c.checkDeviation cfg
  | .stopping => if c.convOn then { c with stopTimer := c.stopTimer.map fun t => t - 1 } else c.enterOff

end Sys2Proof.Machine
end

