-- ==== Sys2Proof/Machine/Setpoint.lean ====
section
/-! DEFINITION. The setpoint generator's arithmetic and deliveries (chapter 2). -/

namespace Sys2Proof.Machine

/-! ### Spans and plan (R22 to R25) -/

/-- A slope: the exact quotient with 12 fraction bits, rounded half-away (R23). -/
def slope (lo hi dx : Nat) : Int := halfAway (((hi : Int) - lo) * 4096) dx

/-- The span of vertex i with its slopes (R23). -/
def spanOf (p : Profile) (i : Nat) : ActiveSpan :=
  let v := p.vertex i
  let w := p.vertex (i + 1)
  { index := i
    x := v.position
    power := v.plan.power
    speed := v.plan.speed
    slopes :=
      if shapeIsRamp v.plan.shape then
        some (slope v.plan.power w.plan.power (w.position - v.position),
          slope v.plan.speed w.plan.speed (w.position - v.position))
      else none }

/-- A planned value on a ramp, clamped between the two vertex values (R24). -/
def rampValue (base next : Nat) (d : Int) (dx : Nat) : Nat :=
  (clampInt (min base next) (max base next) (base + halfAway (d * dx) 4096)).toNat

/-- Planned power and planned speed. -/
structure Plan where
  power : Nat
  speed : Nat
  deriving DecidableEq, Repr

/-- The plan of a span at a plan position (R24). -/
def planIn (p : Profile) (sp : ActiveSpan) (u : Nat) : Plan :=
  match sp.slopes with
  | none => ⟨sp.power, sp.speed⟩
  | some (d, dv) =>
    let w := p.vertex (sp.index + 1)
    ⟨rampValue sp.power w.plan.power d (u - sp.x), rampValue sp.speed w.plan.speed dv (u - sp.x)⟩

/-- The plan at a position, reading the working profile only (R25). -/
def planAt (p : Profile) (y : Nat) : Plan := planIn p (spanOf p (governing p.vertices y)) y

/-- Scheduled power: planned power under a scale (R27). -/
def scheduled (power scale : Nat) : Nat := halfUp (power * scale) 1000

/-! ### The setpoint pipeline (R30 to R37) -/

/-- The correction of a valid reading (R30). -/
def trimCorrection (c : ConfigRecord) (tSet tMeas : Nat) : Int :=
  if tSet = 0 then 0
  else clampInt (-(c.trimLimit : Int)) c.trimLimit (halfAway (c.trimGain * ((tSet : Int) - tMeas)) 16)

/-- The correction an update uses, with the generator after its trim step. -/
structure TrimStep where
  spg : SpgState
  corr : Int
  deriving DecidableEq, Repr

/-- The correction computed by R30, kept as the last correction, the state TRACKING. The hold time keeps its last count
until HOLDING is entered again (log entry 42). -/
def SpgState.trackTrim (g : SpgState) (corr : Int) : TrimStep := ⟨{ g with trim := .tracking, lastCorr := corr }, corr⟩

/-- The trim state and correction of one update (R31). -/
def SpgState.trimUpdate (g : SpgState) (c : ConfigRecord) (tSet tMeas : Nat) (valid : Bool) : TrimStep :=
  if valid then g.trackTrim (trimCorrection c tSet tMeas)
  else
    match g.trim with
    | .acquiring => ⟨g, 0⟩
    | .tracking => ⟨{ g with trim := .holding, holdTime := 0 }, g.lastCorr⟩
    | .holding =>
      if 200 ≤ g.holdTime + 1 then ⟨{ g with trim := .lost, holdTime := 200, lastCorr := 0 }, 0⟩
      else ⟨{ g with holdTime := g.holdTime + 1 }, if tSet = 0 then 0 else g.lastCorr⟩
    | .lost => ⟨g, 0⟩

/-- The effective ceiling: the least of profile ceiling, rating and derate limit (R34). -/
def effectiveCeiling (h : Header) (c : ConfigRecord) (derate : Nat) : Nat := min h.ceiling (min c.rating derate)

/-- The effective floor (R34). -/
def effectiveFloor (h : Header) (ceiling : Nat) : Nat := min h.floor ceiling

/-- Feedback power, clamped to 0 to the effective ceiling (R33). -/
def feedbackPower (sched : Nat) (corr : Int) (ceiling : Nat) : Nat := (clampInt 0 ceiling ((sched : Int) + corr)).toNat

/-- Blended power (R33). -/
def blend (alpha fb sched : Nat) : Nat := (alpha * fb + (255 - alpha) * sched + 127) / 255

/-- The slew-limited command (R35). -/
def slewed (slew prev clip ceiling : Nat) : Nat :=
  (min ((prev : Int) + clampInt (-(slew : Int)) slew ((clip : Int) - prev)) (ceiling : Int)).toNat

/-- The DAC code of a power command (R37). -/
def dacCode (power rating : Nat) : Nat := halfUp (power * 4095) rating

/-! ### Deliveries (R21, R36, R37) -/

/-- SPG delivers a command with its code to CNV; P_prev takes the same value (R20, R21, R36). -/
def deliverPower (power : Nat) (s : State) : State :=
  let code := dacCode power s.config.rating
  (s.onSpg fun g => { g with pCmd := power, pPrev := power, dacCode := code }).onCnv fun c => c.deliver power code

/-- The forced zero (R21). -/
def forceZero (s : State) : State := deliverPower 0 s

/-- A pending scale is discarded (R29). -/
def dropPending (s : State) : State := s.onSpg fun g => { g with pendingScale := none }

/-- What SPG does when the heat states are left or an abort is taken (R21, R29). -/
def endHeat (s : State) : State := dropPending (forceZero s)

/-- A new derate limit that brings the effective ceiling below P_cmd cuts it at once (R36). -/
def derateCut (s : State) : State :=
  if effectiveCeiling s.profile.header s.config s.cnv.derate < s.spg.pCmd then
    deliverPower (effectiveCeiling s.profile.header s.config s.cnv.derate) s
  else s

/-- Span i becomes active, and the spindle command becomes its vertex's (R22, R127). -/
def activateSpan (i : Nat) (s : State) : State :=
  (s.onSpg fun g => { g with span := some (spanOf s.profile i) }).onAxc fun a =>
    a.setSpindle s.seq.scanState (s.profile.vertex i).plan.spindle

/-- SPG at a leave-heat event (R29, R31): a pending scale becomes active except at the last slice; in a production scan
a trim state still ACQUIRING becomes LOST. -/
def SpgState.leaveHeat (g : SpgState) (kind : ScanKind) (last : Bool) : SpgState :=
  { g with
    scale := if last then g.scale else g.pendingScale.getD g.scale
    pendingScale := if last then g.pendingScale else none
    trim := if kind = .production ∧ g.trim = .acquiring then .lost else g.trim }

/-- SPG's START values (Table 2-1). -/
def SpgState.atStart : SpgState := SpgState.reset

/-- SPG on entry to heat, the span and the zero command apart (Table 2-1). -/
def SpgState.atHeat (g : SpgState) : SpgState := { g with trim := .acquiring, lastCorr := 0, holdTime := 0 }

end Sys2Proof.Machine
end

