-- ==== Sys2Proof/Machine/Slices.lean ====
section
/-! DEFINITION. The slice tracker's own operations (chapter 4): creating the table, heating, attribution of samples,
targets, quench events short of their reports, abort marking, figures. -/

namespace Sys2Proof.Machine

/-! ### Creating the table (R69, R70) -/

/-- The midpoint of a slice (R70). -/
def midpoint (start length : Nat) : Nat := start + length / 2

/-- The length of slice k of N (R69). -/
def sliceLength (p : Profile) (k : Nat) : Nat :=
  if k + 1 < p.sliceCount then p.header.pitch
  else (p.last - p.first) - (p.sliceCount - 1) * p.header.pitch

/-- Slice k as created (R69, R70). -/
def newSlice (w : Working) (k : Nat) : SliceRec :=
  let p := w.profile
  let start := p.first + k * p.header.pitch
  let gov := governing p.vertices (midpoint start (sliceLength p k))
  { start := start
    length := sliceLength p k
    gov := gov
    state := .pending
    flags := if (replacedBy w.replaced gov).isSome then SliceFlag.patched.word else 0
    eAct := 0
    heatScale := none
    eTgt := none
    specific := none
    deviation := none
    quarterTurns := 0
    pulses := 0
    leaveTime := none
    enterTime := none
    transferTime := none
    quenchTime := none
    ringMask := (p.vertex gov).plan.ringMask
    pattern := (p.vertex gov).plan.pattern }

/-- SLT at a START taken: N records, everything else at its START value (Table 4-1). -/
def SltState.atStart (w : Working) : SltState :=
  { SltState.reset with
    table := (List.range w.profile.sliceCount).map (newSlice w), count := w.profile.sliceCount }

/-! ### Heating and targets (R72, R82 to R84) -/

/-- The travel part of a target (R83). -/
def travelTarget (p : Profile) (scale : Nat) (r : SliceRec) : Nat :=
  let plan := planAt p (midpoint r.start r.length)
  halfUp (scheduled plan.power scale * 1000 * r.length) plan.speed

/-- The dwell part of a target (R84). -/
def dwellTarget (p : Profile) (scale j : Nat) : Nat :=
  scheduled (p.vertex j).plan.power scale * (p.vertex j).plan.dwell

/-- Slice k begins HEATING under a scale (R73 step 4, R83). -/
def SltState.beginHeating (t : SltState) (p : Profile) (scale k : Nat) : SltState :=
  { t.onSlice k fun r =>
      { r with state := .heating, heatScale := some scale, eTgt := some (travelTarget p scale r) } with
    underCoil := some k }

/-- The dwell part added to the HEATING slice at an entry to DWELL (R84). -/
def SltState.addDwell (t : SltState) (p : Profile) (j : Nat) : SltState :=
  match t.underCoil with
  | none => t
  | some k =>
    t.onSlice k fun r =>
      { r with eTgt := some (r.eTgt.getD 0 + dwellTarget p (r.heatScale.getD 1000) j) }

/-- A flag reported for the HEATING slice (R86). -/
def SltState.flagHeating (t : SltState) (f : SliceFlag) : SltState :=
  match t.underCoil with
  | none => t
  | some k => t.onSlice k fun r => r.flag f

/-- A flag reported for the QUENCHING slice (R86). -/
def SltState.flagQuenching (t : SltState) (f : SliceFlag) : SltState :=
  match t.atQuench with
  | none => t
  | some k => t.onSlice k fun r => r.flag f

/-- A rotation pulse counted to the HEATING slice (R87). -/
def SltState.countPulse (t : SltState) (pulsesPerRev : Nat) : SltState :=
  match t.underCoil with
  | none => t
  | some k =>
    t.onSlice k fun r =>
      { r with
        pulses := satAdd top16 r.pulses 1
        quarterTurns := min top16 (satAdd top16 r.pulses 1 * 4 / pulsesPerRev) }

/-! ### Attributing a power sample (R79 to R81) -/

/-- A slice end lies in (hPrev, hNow] (R79). -/
def SliceRec.endsIn (r : SliceRec) (hPrev hNow : Nat) : Bool := decide (hPrev < r.endPos) && decide (r.endPos ≤ hNow)

/-- Energy added to a slice, saturating (R79, R81). -/
def SliceRec.credit (e : Nat) (r : SliceRec) : SliceRec := { r with eAct := satAdd top32 r.eAct e }

/-- The parts a sample is cut into at the slice ends inside (hPrev, hNow], one for each slice from the HEATING one upward,
with what lies at or above x_last: `lo` is where the next part begins, `given` what the parts below have received. A slice
that ends at or below `lo` holds no part: one that the high mark had passed before it began HEATING, where h rose in
IGNITE (R79, R122). -/
def sampleParts (sample hPrev hNow : Nat) : List SliceRec → Nat → Nat → List Nat × Nat
  | [], _, given => ([], sample - given)
  | r :: rs, lo, given =>
    if r.endPos ≤ lo then
      let rest := sampleParts sample hPrev hNow rs lo given
      (0 :: rest.1, rest.2)
    else if r.endPos < hNow then
      let part := halfUp (sample * (r.endPos - lo)) (hNow - hPrev)
      let rest := sampleParts sample hPrev hNow rs r.endPos (given + part)
      (part :: rest.1, rest.2)
    else ([sample - given], 0)

/-- Energy added to slices from the first of a list upward (R79). -/
def creditSlices : List SliceRec → List Nat → List SliceRec
  | r :: rs, e :: es => r.credit e :: creditSlices rs es
  | rs, _ => rs

/-- Part 1 of a tracking step: the sample credited (R79, R80), whole to the HEATING slice where no slice end lies in the
interval, else in the parts of the cut. -/
def SltState.attribute (t : SltState) (sample hNow : Nat) : SltState :=
  match t.underCoil with
  | none => { t with unassigned := satAdd top32 t.unassigned sample }
  | some k =>
    let hPrev := t.mark.getD hNow
    if (t.table.drop k).any fun r => r.endsIn hPrev hNow then
      let parts := sampleParts sample hPrev hNow (t.table.drop k) hPrev 0
      { t with
        table := t.table.take k ++ creditSlices (t.table.drop k) parts.1
        unassigned := satAdd top32 t.unassigned parts.2 }
    else t.onSlice k (SliceRec.credit sample)

/-! ### Leave-heat events (R73, R74, R87) -/

/-- Slice k leaves heat: IN_TRANSIT, its leave time, the tail of the transit list, and the rotation test (R73 steps 1
and 2, R87). -/
def SltState.leaveHeat (t : SltState) (p : Profile) (k clock : Nat) : SltState :=
  { t.onSlice k fun r =>
      { r with state := .inTransit, leaveTime := some clock }.flagIf
        (!hasFlag r.flags .heatCut && decide (r.quarterTurns < (p.vertex r.gov).plan.minTurns)) .fewTurns with
    transit := t.transit ++ [k], underCoil := none }

/-- One leave-heat event for slice k, SPG's share included (R73). -/
def leaveHeatEvent (k clock : Nat) (s : State) : State :=
  let last := decide (s.slt.count ≤ k + 1)
  let s := (s.onSlt fun t => t.leaveHeat s.profile k clock).onSpg fun g => g.leaveHeat s.seq.kind last
  if last then s else s.onSlt fun t => t.beginHeating s.profile s.spg.scale (k + 1)

/-- Part 2 of a tracking step: a leave-heat event for each slice end reached (R73, R74); `n` bounds the events. -/
def leaveHeats (hNow clock : Nat) : Nat → State → State
  | 0, s => s
  | n + 1, s =>
    match s.slt.underCoil with
    | none => s
    | some k =>
      match s.slt.slice? k with
      | none => s
      | some r => if r.endPos ≤ hNow then leaveHeats hNow clock n (leaveHeatEvent k clock s) else s

/-! ### Quench events (R76, R77, R88, R104) -/

/-- The quench point of a high mark; it may lie below 0 before the scan has risen by the quench offset. -/
def quenchPoint (p : Profile) (h : Nat) : Int := (h : Int) - p.header.quenchOffset

/-- The head slice enters quench (R76). -/
def SltState.enterQuench (t : SltState) (p : Profile) (k clock : Nat) : SltState :=
  { t.onSlice k fun r =>
      let transfer := clock - r.leaveTime.getD clock
      { r with state := .quenching, enterTime := some clock, transferTime := some transfer }.flagIf
        (decide (p.header.maxTransfer < transfer)) .lateQuench with
    atQuench := some k }

/-- Whether a slice entering quench restarts the pattern counter (R104). -/
def patternRestarts (t : SltState) (p : Profile) (k : Nat) : Bool :=
  match k with
  | 0 => true
  | j + 1 =>
    match t.slice? (j + 1), t.slice? j with
    | some r, some below => r.gov != below.gov && (p.vertex r.gov).plan.restart
    | _, _ => false

/-- The counter restarted at the start of the entering slice (R104). -/
def QchState.restartPattern (q : QchState) (qp : Int) (start : Nat) : QchState :=
  { q with patternCount := 0, patternTravel := (qp - start).toNat, patternMark := some qp }

/-- An enter-quench event of slice k, the pattern restart included (R76, R104). -/
def enterQuenchEvent (k hNow clock : Nat) (s : State) : State :=
  let start := ((s.slt.slice? k).map SliceRec.start).getD 0
  let s' := s.onSlt fun t => t.enterQuench s.profile k clock
  if patternRestarts s.slt s.profile k then s'.onQch fun q => q.restartPattern (quenchPoint s.profile hNow) start
  else s'

/-- The QUENCHING slice leaves quench and is evaluated (R77 steps 1 to 3). -/
def SltState.leaveQuench (t : SltState) (kind : ScanKind) (tolerance k clock : Nat) : SltState :=
  { t.onSlice k fun r =>
      { r with state := .done, quenchTime := some (clock - r.enterTime.getD clock) }.evaluate kind tolerance with
    transit := t.transit.drop 1, atQuench := none, lastDone := some k }

/-- Part 4 of a tracking step: the transfer check (R88). -/
def SltState.transferCheck (t : SltState) (maxTransfer clock : Nat) : SltState :=
  { t with
    table := t.table.map fun r =>
      r.flagIf (r.state == .inTransit && decide (maxTransfer < clock - r.leaveTime.getD clock)) .lateQuench }

/-! ### SLICE notices (R92) -/

/-- A time sent in a field of a given top (R186). -/
def limited (top : Nat) (t : Option Nat) : Nat := min top (t.getD 0)

/-- The SLICE notice of a slice (Table 11-11); bits 3 to 7 of its presence byte are 0 (log entry 52). -/
def sliceNoticePayload (k clock : Nat) (r : SliceRec) : List Byte :=
  beBytes 2 k ++ beBytes 2 r.flags.toNat
    ++ [bitsByte [r.specific.isSome, r.deviation.isSome, r.transferTime.isSome]]
    ++ beBytes 2 (r.specific.getD 0) ++ beInt16 (r.deviation.getD 0) ++ beBytes 2 (limited top16 r.transferTime)
    ++ beBytes 4 clock

/-- A SLICE notice for slice k where it carries a flag (R92). -/
def sliceNotice (k : Nat) (s : State) : State :=
  match s.slt.slice? k with
  | none => s
  | some r => if r.flags = 0 then s else notice .slice (sliceNoticePayload k s.seq.clock r) s

/-- SLICE notices for several slices in the order given (R90, R91). -/
def sliceNotices : List Nat → State → State
  | [], s => s
  | k :: ks, s => sliceNotices ks (sliceNotice k s)

/-! ### Abort marking (R89 to R91) -/

/-- Whether a slice is unfinished under an abort: HEATING, IN_TRANSIT or QUENCHING. -/
def SliceState.isOpen : SliceState → Bool
  | .heating | .inTransit | .quenching => true
  | .pending | .done => false

/-- The indices of the records that satisfy a condition, in increasing order. -/
def indicesWhere (c : SliceRec → Bool) (table : List SliceRec) : List Nat :=
  (List.range table.length).filter fun k => (table[k]?.map c).getD false

/-- A HEATING slice cut from heat by an abort (R89 to R91). -/
def SliceRec.cutHeat (r : SliceRec) (clock : Nat) : SliceRec :=
  if r.state = .heating then { r with leaveTime := some clock }.flag .heatCut else r

/-- The marking at entry to QUENCH_OUT (R89). A slice N − 1 whose leave-heat event has not yet been taken when RUNOUT is
aborted is cut like any HEATING slice (log entry 43). -/
def SltState.markQuenchOut (t : SltState) (clock : Nat) : SltState :=
  match t.underCoil with
  | none => t
  | some k =>
    { t.onSlice k fun r => { r.cutHeat clock with state := .inTransit } with
      transit := t.transit ++ [k], underCoil := none }

/-- An unfinished slice made DONE by an abort with a flag, its quench time up to the marking, evaluated (R90, R91). -/
def SliceRec.finish (r : SliceRec) (kind : ScanKind) (tolerance clock : Nat) (f : SliceFlag) : SliceRec :=
  if r.state.isOpen then
    ({ r.cutHeat clock with
        state := .done
        quenchTime := if r.state = SliceState.quenching then some (clock - r.enterTime.getD clock) else r.quenchTime }.flag
      f).evaluate kind tolerance
  else r

/-- Every unfinished slice made DONE, the transit list emptied (R90, R91). -/
def SltState.finishAll (t : SltState) (kind : ScanKind) (tolerance clock : Nat) (f : SliceFlag) : SltState :=
  { t with
    table := t.table.map fun r => r.finish kind tolerance clock f
    transit := [], underCoil := none, atQuench := none }

/-- The marking at entry to FLOOD (R90). -/
def markFlood (s : State) : State :=
  let marked := indicesWhere (fun r => r.state.isOpen) s.slt.table
  sliceNotices marked <| s.onSlt fun t =>
    { t.finishAll s.seq.kind s.profile.header.tolerance s.seq.clock .floodQuenched with
      floodStatus := .unconfirmed, flooded := marked }

/-- A flooded slice whose flood was not confirmed: UNQUENCHED in place of FLOOD_QUENCHED (R91). -/
def SliceRec.unflood (r : SliceRec) : SliceRec :=
  { r with flags := setFlag (clearFlag r.flags .floodQuenched) .unquenched }

/-- The flooded slices of an unconfirmed marking (R91). -/
def SltState.unconfirmed (t : SltState) : List Nat := if t.floodStatus = .unconfirmed then t.flooded else []

/-- Records changed at some indices. -/
def SltState.onSlices (t : SltState) (ks : List Nat) (f : SliceRec → SliceRec) : SltState :=
  ks.foldl (fun t k => t.onSlice k f) t

/-- The marking at the STOP action (R91). -/
def markStop (s : State) : State :=
  let marked := indicesWhere (fun r => r.state.isOpen) s.slt.table
  let flooded := s.slt.unconfirmed
  let changed := (List.range s.slt.table.length).filter fun k => marked.contains k || flooded.contains k
  sliceNotices changed <| s.onSlt fun t =>
    (t.finishAll s.seq.kind s.profile.header.tolerance s.seq.clock .unquenched).onSlices flooded SliceRec.unflood

/-- The report that the flood flow is established (R90). -/
def SltState.confirmFlood (t : SltState) : SltState :=
  { t with floodStatus := if t.floodStatus = .unconfirmed then .confirmed else t.floodStatus }

/-! ### Figures (R94) -/

/-- The total energy, saturating (R94). -/
def SltState.totalEnergy (t : SltState) : Nat :=
  t.table.foldl (fun e r => satAdd top32 e r.eAct) (min top32 t.unassigned)

/-- The largest transfer time among slices that entered quench (R94). -/
def SltState.largestTransfer (t : SltState) : Option Nat :=
  t.table.foldl
    (fun m r =>
      match r.enterTime, r.transferTime with
      | some _, some d => some (max d (m.getD 0))
      | _, _ => m) none

end Sys2Proof.Machine
end

