-- ==== Sys2Proof/Machine/Quench.lean ====
section
/-! DEFINITION. The quench controller's own operations (chapter 5): demands, the permit gate, flow checks, the pattern
counter, readback supervision. -/

namespace Sys2Proof.Machine

/-! ### Pattern and demand (R99, R100, R103, R109) -/

/-- The record of the slice at quench. -/
def SltState.quenching? (t : SltState) : Option SliceRec := t.atQuench.bind t.slice?

/-- The step position for a slice (R103). -/
def stepPositionOf (p : Profile) (n : Nat) (r : SliceRec) : Nat :=
  if r.pattern = 0 then 0 else n % (p.header.patterns.getD (r.pattern - 1) ⟨1, 0⟩).period

/-- The step position; 0 with no slice at quench (R103). -/
def State.stepPosition (s : State) : Nat :=
  (s.slt.quenching?.map (stepPositionOf s.profile s.qch.patternCount)).getD 0

/-- Whether the pattern step is on for a slice (R100). -/
def patternOn (p : Profile) (n : Nat) (r : SliceRec) : Bool :=
  r.pattern == 0 || (p.header.patterns.getD (r.pattern - 1) ⟨1, 0⟩).steps.getLsbD (stepPositionOf p n r)

/-- The demand that follows the slice at quench (R100). -/
def State.followDemand (s : State) (c : Circuit) : Bool :=
  match s.slt.quenching? with
  | none => false
  | some r => maskHas r.ringMask c && patternOn s.profile s.qch.patternCount r

/-- The holding demand: the ring mask of the last slice made DONE (R109). -/
def State.holdDemand (s : State) (c : Circuit) : Bool :=
  match s.slt.lastDone.bind s.slt.slice? with
  | none => false
  | some r => maskHas r.ringMask c

/-- The ring demand of Table 5-2 in a production scan. -/
def State.ringDemand (s : State) (c : Circuit) : Bool :=
  match s.seq.scanState with
  | .idle | .approach | .ignite | .complete | .halted | .flood => false
  | .dwell | .scan | .runout => s.followDemand c
  | .soak => s.holdDemand c
  | .quenchOut => if s.seq.phase = some .holding then s.holdDemand c else s.followDemand c

/-- The demand of each circuit (Table 5-2). -/
def State.demandNow (s : State) (c : Circuit) : Bool :=
  match s.seq.kind with
  | .dry => false
  | .production =>
    match c with
    | .ringA => s.ringDemand .ringA
    | .ringB => s.ringDemand .ringB
    | .flood => s.seq.scanState == .flood

/-- A demand set on a circuit: opening starts the flow check, closing ends it, no change leaves it (R106). Flow low is
cleared at a close whatever the check, also where an entry to MISMATCH had ended the check and kept it (log entry 45). -/
def CircuitRec.setDemand (c : CircuitRec) (d : Bool) : CircuitRec :=
  if d = c.demand then c
  else if d then
    { c with
      demand := true, check := .rising, riseElapsed := 0, established := false, flowLow := false, lowRaised := false }
  else { c with demand := false, check := .idle, established := false, flowLow := false }

/-- The six scan states in which a valve may be open (R98). -/
def ScanState.allowsQuench : ScanState → Bool
  | .dwell | .scan | .runout | .soak | .quenchOut | .flood => true
  | .idle | .approach | .ignite | .complete | .halted => false

/-- The output through the permit gate; the circuit state follows it outside MISMATCH (R95, R98). -/
def CircuitRec.gate (c : CircuitRec) (permit : Bool) (st : ScanState) : CircuitRec :=
  match c.state with
  | .mismatch => { c with output := false }
  | .closed | .opened =>
    { c with
      output := c.demand && permit && st.allowsQuench
      state := if c.demand && permit && st.allowsQuench then .opened else .closed }

/-- QCH re-forms the demands and the outputs of its circuits (R98, R99, R101). -/
def reformQuench (s : State) : State :=
  s.onQch fun q =>
    { q with
      ringA := (q.ringA.setDemand (s.demandNow .ringA)).gate s.pfm.quenchPermit s.seq.scanState
      ringB := (q.ringB.setDemand (s.demandNow .ringB)).gate s.pfm.quenchPermit s.seq.scanState
      flood := (q.flood.setDemand (s.demandNow .flood)).gate s.pfm.quenchPermit s.seq.scanState }

/-! ### Readback supervision (R96, R97) -/

/-- One update of a circuit's readback times. 151 and 150 mark the events due (log entries 3 and 4). -/
def CircuitRec.sampleReadback (c : CircuitRec) (isOpen : Bool) : CircuitRec :=
  match c.state with
  | .mismatch => { c with readback := some isOpen, agree := if isOpen then 0 else min 150 (c.agree + 1) }
  | .closed | .opened =>
    { c with readback := some isOpen, disagree := if isOpen = c.output then 0 else min 151 (c.disagree + 1) }

/-- A circuit's entry to MISMATCH is due (R96). -/
def CircuitRec.mismatchDue (c : CircuitRec) : Bool := c.state != .mismatch && decide (151 ≤ c.disagree)

/-- A circuit's return from MISMATCH is due (R97). -/
def CircuitRec.clearDue (c : CircuitRec) : Bool := c.state == .mismatch && decide (150 ≤ c.agree)

/-- Entry to MISMATCH (R96 step 1). -/
def CircuitRec.enterMismatch (c : CircuitRec) : CircuitRec :=
  { c with state := .mismatch, output := false, check := .idle, established := false, disagree := 150, agree := 0 }

/-- Return from MISMATCH (R97). -/
def CircuitRec.leaveMismatch (c : CircuitRec) : CircuitRec := { c with state := .closed, disagree := 0, agree := 0 }

/-- The rise time one millisecond on (R106); it stops at the flow rise time, which marks its expiry due. -/
def CircuitRec.riseTick (c : CircuitRec) (riseTime : Nat) : CircuitRec :=
  match c.check with
  | .rising => { c with riseElapsed := min riseTime (c.riseElapsed + 1) }
  | .idle | .watching => c

/-- The expiry of a circuit's rise time is due (R106). -/
def CircuitRec.riseDue (c : CircuitRec) (riseTime : Nat) : Bool :=
  c.check == .rising && decide (riseTime ≤ c.riseElapsed)

/-- The rise time passes with the flow not established (R106). -/
def CircuitRec.riseExpire (c : CircuitRec) : CircuitRec :=
  { c with check := .watching, established := false, flowLow := true }

/-! ### Flow (R105, R106) -/

/-- The minimum flow of a circuit. -/
def minFlow (c : ConfigRecord) : Circuit → Nat
  | .ringA => c.minFlowA
  | .ringB => c.minFlowB
  | .flood => c.minFlowFlood

/-- A circuit's flow formed from the pulses of the last ten periods of 10 ms (R105). -/
def CircuitRec.formFlow (c : CircuitRec) (pulsesPerLitre : Nat) : CircuitRec :=
  { c with
    flow := min top16 (halfUp ((c.pulses + c.window.sum) * 600) pulsesPerLitre)
    window := (c.pulses :: c.window).take 9
    pulses := 0 }

/-- The flow check at a flow update (R106). -/
def CircuitRec.flowCheck (c : CircuitRec) (minimum : Nat) : CircuitRec :=
  match c.check with
  | .idle => c
  | .rising => if minimum ≤ c.flow then { c with check := .watching, established := true } else c
  | .watching => { c with flowLow := decide (c.flow < minimum) }

/-- Whether a flow update in WATCHING finds the flow low (R107, R108). -/
def CircuitRec.watchedLow (c : CircuitRec) (minimum : Nat) : Bool :=
  c.check == .watching && decide (c.flow < minimum)

/-! ### The pattern counter (R102) -/

/-- The counter at a quench update: the rise since the mark counts only while a slice is at quench (R102). -/
def QchState.advancePattern (q : QchState) (qp : Int) (slicePresent : Bool) : QchState :=
  match q.patternMark with
  | none => q
  | some m =>
    if slicePresent then
      let sum := q.patternTravel + (qp - m).toNat
      { q with patternMark := some qp, patternCount := q.patternCount + sum / 50, patternTravel := sum % 50 }
    else { q with patternMark := some qp }

/-- The states in which the pattern counter is worked (R102). -/
def ScanState.runsPattern : ScanState → Bool
  | .dwell | .scan | .runout | .quenchOut => true
  | .idle | .approach | .ignite | .soak | .complete | .flood | .halted => false

/-- The pattern items at START (Table 5-3). -/
def QchState.patternAtStart (q : QchState) : QchState :=
  { q with patternCount := 0, patternTravel := 0, patternMark := none }

end Sys2Proof.Machine
end

