-- ==== Sys2Proof/Machine/Sequence.lean ====
section
/-! DEFINITION. The scan sequencer (chapter 3): moves between scan states with every block's share, the scan summary,
the judgement of causes and the raising of a cause to SEQ and PFM. -/

namespace Sys2Proof.Machine

/-! ### Announcing a change of scan state (R43) -/

/-- The payload of a STATE notice (Table 11-11). -/
def stateNoticePayload (q : SeqState) (prev : ScanState) (result : Option ScanResult) : List Byte :=
  [byteOf q.scanState.code, byteOf prev.code, byteOf q.kind.code] ++ beBytes 4 q.clock ++ beOpt 1 q.dwellVertex
    ++ beOpt 1 (q.abortCause.map Cause.code) ++ [byteOf (AbortAction.code q.abortAction)]
    ++ beOpt 1 (q.abortState.map ScanState.code) ++ beOpt 1 (q.escalation.map Cause.code)
    ++ beOpt 1 (result.map ScanResult.code)

/-- After a change of scan state the lamps are re-formed and a STATE notice is built (R43, R156, R157). -/
def announce (prev : ScanState) (result : Option ScanResult) (s : State) : State :=
  notice .state (stateNoticePayload s.seq prev result) (reformLamps s)

/-! ### The scan summary (R172) -/

/-- The summary of the scan with a result. -/
def summaryOf (result : ScanResult) (s : State) : Summary where
  tag := (s.ord.running.map Order.tag).getD 0
  shaft := (s.ord.running.map Order.shaft).getD (List.replicate 20 0)
  profile := (s.ord.working.map Working.source).getD 0
  revision := (s.ord.working.map Working.revision).getD 0
  patches := (s.ord.working.map fun w => w.replaced.map Prod.snd).getD []
  kind := s.seq.kind
  result := result
  cause := if result = .aborted then s.seq.abortCause else none
  flagCounts := flagCounts s.slt.table
  energy := s.slt.totalEnergy
  time := s.seq.clock
  largestTransfer := s.slt.largestTransfer

/-- The result at COMPLETE (R172). -/
def completeResult (s : State) : ScanResult :=
  match s.seq.kind with
  | .dry => .dry
  | .production => if (flagCounts s.slt.table).all (· == 0) then .good else .reject

/-- ORD writes the summary and directs the result indicators (R158, R172). -/
def writeSummary (result : ScanResult) (s : State) : State :=
  (s.onOrd fun o => { o with summary := some (summaryOf result s) }).onPfm fun p =>
    match result with
    | .good => { p with resultGood := true }
    | .reject => { p with resultReject := true }
    | .aborted | .dry => p

/-! ### Entries that no cause can interrupt -/

/-- Entry to HALTED (R54). -/
def enterHalted (s : State) : State :=
  let prev := s.seq.scanState
  let s := s.onSeq fun q => { q with scanState := .halted, dwellVertex := none, timer := none, phase := none }
  let s := (endHeat s).onCnv CnvState.stop
  let s := s.onAxc fun a => (a.quickStop.setSpindle .halted 0).rotationOff
  announce prev (some .aborted) (writeSummary .aborted (reformQuench s))

/-- The STOP action (R62): the marking, then HALTED. -/
def stopAction (s : State) : State := enterHalted (markStop s)

/-- Entry to FLOOD (R61, R110). -/
def enterFlood (s : State) : State :=
  let prev := s.seq.scanState
  let s := markFlood s
  let s := s.onSeq fun q =>
    { q with scanState := .flood, dwellVertex := none, timer := some s.config.floodTime, phase := none }
  let s := (endHeat s).onCnv CnvState.stop
  let s := s.onAxc fun a => a.quickStop.rotationOff
  announce prev none (reformQuench s)

/-- Entry to COMPLETE, and at the same event to IDLE (R53). -/
def enterComplete (s : State) : State :=
  let prev := s.seq.scanState
  let result := completeResult s
  let s := s.onSeq fun q => { q with scanState := .complete, dwellVertex := none, timer := none, phase := none }
  let s := reformQuench (writeSummary result s)
  let s := s.onAxc fun a => (a.setSpindle .complete 0).rotationOff
  let s := announce prev (some result) s
  announce .complete none (s.onSeq fun q => { q with scanState := .idle })

/-- Entry to SOAK, passing on to COMPLETE at once with a soak time of 0 (R51, R52). -/
def enterSoak (s : State) : State :=
  let prev := s.seq.scanState
  let soak := s.profile.header.soakTime
  let s := s.onSeq fun q => { q with scanState := .soak, timer := some soak }
  let s := s.onAxc fun a => a.controlledStop.rotationOff
  let s := announce prev none (reformQuench s)
  if soak = 0 then enterComplete s else s

/-- The holding phase of QUENCH_OUT begins, passing on to HALTED at once with a soak time of 0 (R60). -/
def beginHolding (s : State) : State :=
  let soak := s.profile.header.soakTime
  let s := s.onSeq fun q => { q with phase := some .holding, timer := some soak }
  let s := if s.seq.abortState = some .soak then s else s.onAxc AxcState.controlledStop
  let s := reformQuench s
  if soak = 0 then enterHalted s else s

/-- The DONE report that leaves the transit list empty (R77 step 5): RUNOUT moves to SOAK, draining to holding. -/
def drained (s : State) : State :=
  match s.seq.scanState with
  | .runout => enterSoak s
  | .quenchOut => if s.seq.phase = some .draining then beginHolding s else s
  | .idle | .approach | .ignite | .dwell | .scan | .soak | .complete | .flood | .halted => s

/-! ### Judging a cause (R57, R63, R64) -/

/-- The action of the abort policy (Table 11-3). -/
def policyAction (policy : Byte) : AbortAction := if policyIsFlood policy then .flood else .quenchOut

/-- The action for a cause by the state found, or none where it changes nothing (Tables 3-4 and 3-5). -/
def abortDecision (st : ScanState) (kind : ScanKind) (policy : Byte) (c : Cause) : Option AbortAction :=
  match st with
  | .idle | .halted | .complete => none
  | .approach | .ignite => if c.cls = .faultOnly then none else some .stop
  | .dwell | .scan | .runout | .soak =>
    match kind, c.cls with
    | _, .faultOnly => none
    | .dry, _ => some .stop
    | .production, .heatLoss => some (policyAction policy)
    | .production, .travelLoss => some .flood
    | .production, .quenchLoss => some .stop
    | .production, .emergency => some .stop
  | .quenchOut =>
    match kind, c.cls with
    | _, .faultOnly => none
    | .dry, _ => some .stop
    | .production, .heatLoss => if c = .hostAbort then some .flood else none
    | .production, .travelLoss => some .flood
    | .production, .quenchLoss => some .stop
    | .production, .emergency => some .stop
  | .flood =>
    match kind, c.cls with
    | _, .faultOnly => none
    | .dry, _ => some .stop
    | .production, .heatLoss => none
    | .production, .travelLoss => none
    | .production, .quenchLoss => some .stop
    | .production, .emergency => some .stop

/-- Whether an abort action is under way, so that a cause is a further cause (section 3.8). -/
def ScanState.underAbort : ScanState → Bool
  | .quenchOut | .flood => true
  | .idle | .approach | .ignite | .dwell | .scan | .runout | .soak | .complete | .halted => false

/-- The abort record after a cause that takes an action (R57, R63). -/
def SeqState.record (q : SeqState) (c : Cause) (act : AbortAction) : SeqState :=
  if q.scanState.underAbort then { q with abortAction := some act, escalation := some c }
  else { q with abortCause := some c, abortAction := some act, abortState := some q.scanState }

/-- SEQ judges a cause, given what entering QUENCH_OUT does. -/
def judgeWith (quenchOut : State → State) (c : Cause) (s : State) : State :=
  match abortDecision s.seq.scanState s.seq.kind s.profile.header.policy c with
  | none => s
  | some act =>
    let s := s.onSeq fun q => q.record c act
    match act with
    | .quenchOut => quenchOut s
    | .flood => enterFlood s
    | .stop => stopAction s

/-- A cause as its source raises it, with its circuit item (Table 8-3). -/
structure Raised where
  cause : Cause
  item : CircuitItem
  deriving DecidableEq, Repr

/-- What a cause brings about: SEQ judges it and PFM takes it, with the scan state as the source found it (R57, R150). -/
def Raised.events (quenchOut : State → State) (found : ScanState) (r : Raised) : List (State → State) :=
  [judgeWith quenchOut r.cause, pfmTake ⟨r.cause, r.item, found⟩]

/-- The causes of one event raised to SEQ and PFM. Each report carries the scan state found at that event, before any of
them is judged; SEQ and PFM take them in any order (R57, R150, R151; log entry 6). -/
def raiseAllWith (quenchOut : State → State) (rs : List Raised) (s : State) : State :=
  inAnyOrder (rs.flatMap (Raised.events quenchOut s.seq.scanState)) s

/-- TRAVEL_LIMIT where a motion about to begin is forbidden: with a quick stop at the same event (R123, R126). -/
def raiseBlockedWith (quenchOut : State → State) (b : Option LimitSwitch) (s : State) : State :=
  match b with
  | none => s
  | some w => raiseAllWith quenchOut [⟨.travelLimit, .limitSwitch w⟩] (s.onAxc AxcState.quickStop)

/-- Entry to QUENCH_OUT as a first cause's action (R59, R60, R89). A rise from rest toward an OPEN upper switch raises
TRAVEL_LIMIT, which QUENCH_OUT judges by FLOOD and never by QUENCH_OUT; where SEQ judges the entering cause before PFM
takes it, PFM takes that TRAVEL_LIMIT first (DESIGN CHOICE, log entry 49). -/
def enterQuenchOut (s : State) : State :=
  let prev := s.seq.scanState
  let blocked := if prev = .soak then none else s.axc.trackBlocked
  let s := s.onSlt fun t => t.markQuenchOut s.seq.clock
  let empty := s.slt.transit.isEmpty
  let s := s.onSeq fun q =>
    { q with
      scanState := .quenchOut, dwellVertex := none, timer := none
      phase := if empty then some .holding else some .draining }
  let s := (endHeat s).onCnv CnvState.stop
  let s := s.onAxc fun a => if prev = .soak then a.settle else a.trackHold
  let s := announce prev none (reformQuench s)
  if empty then beginHolding s else raiseBlockedWith id blocked s

/-- SEQ judges a cause (R57, R63, R64). -/
def judge (c : Cause) (s : State) : State := judgeWith enterQuenchOut c s

/-- The causes of one event raised to SEQ and PFM. -/
def raiseAll (rs : List Raised) (s : State) : State := raiseAllWith enterQuenchOut rs s

/-- A cause raised to SEQ and PFM. -/
def raiseCause (c : Cause) (item : CircuitItem) (s : State) : State := raiseAll [⟨c, item⟩] s

/-- Travel causes raised by AXC at one event: with a quick stop at the same event (R123). -/
def raiseTravels (rs : List Raised) (s : State) : State := raiseAll rs (s.onAxc AxcState.quickStop)

/-- A travel cause raised by AXC. -/
def raiseTravel (c : Cause) (item : CircuitItem) (s : State) : State := raiseTravels [⟨c, item⟩] s

/-- TRAVEL_LIMIT where a motion about to begin is forbidden. -/
def raiseBlocked (b : Option LimitSwitch) (s : State) : State := raiseBlockedWith enterQuenchOut b s

/-- A cause of CNV: the channel enters STOPPING at the same event (R133). -/
def raiseConverter (c : Cause) (s : State) : State := raiseCause c .noItem (s.onCnv CnvState.stop)

/-! ### The ordinary course of a scan -/

/-- Entry to RUNOUT (R50). -/
def enterRunout (s : State) : State :=
  let prev := s.seq.scanState
  let s := s.onSeq fun q => { q with scanState := .runout, dwellVertex := none, timer := none }
  let s := (endHeat s).onCnv CnvState.stop
  announce prev none (reformQuench (s.onAxc AxcState.trackHold))

/-- SCAN to DWELL at dwell vertex j (R48, R49, R84). -/
def enterDwell (j : Nat) (s : State) : State :=
  let prev := s.seq.scanState
  let s := s.onSeq fun q =>
    { q with scanState := .dwell, dwellVertex := some j, timer := some (s.profile.vertex j).plan.dwell }
  let s := (activateSpan j s).onSlt fun t => t.addDwell s.profile j
  announce prev none (reformQuench s)

/-- A SCAN begins: TRACKING from rest, no planned speed delivered yet (R47, R48, R119). -/
def beginTracking (s : State) : State :=
  (s.onSpg fun g => { g with plannedSpeed := none }).onAxc AxcState.track

/-- DWELL to SCAN (R48). -/
def leaveDwell (s : State) : State :=
  let prev := s.seq.scanState
  let blocked := s.axc.trackBlocked
  let s := s.onSeq fun q => { q with scanState := .scan, dwellVertex := none, timer := none }
  raiseBlocked blocked (announce prev none (reformQuench (beginTracking s)))

/-- The scan state first entered at entry to heat, with its dwell vertex and timer (R45, R46). -/
def SeqState.enterHeat (q : SeqState) (dwell : Nat) : SeqState :=
  if 0 < dwell then { q with scanState := .dwell, dwellVertex := some 0, timer := some dwell }
  else { q with scanState := .scan, dwellVertex := none, timer := none }

/-- SLT at entry to heat (R72): the tracking mark, slice 0 HEATING, and the dwell part in DWELL. -/
def SltState.enterHeat (t : SltState) (p : Profile) (scale high : Nat) (dwells : Bool) : SltState :=
  let t := { t with mark := some high }.beginHeating p scale 0
  if dwells then t.addDwell p 0 else t

/-- Entry to heat (R47). The pattern mark is the quench point of the high mark then held, which R122 may have raised above
x_0 in IGNITE (R102; log entry 44). -/
def entryToHeat (s : State) : State :=
  let prev := s.seq.scanState
  let dwell := (s.profile.vertex 0).plan.dwell
  let blocked := if 0 < dwell then none else s.axc.trackBlocked
  let s := s.onSeq fun q => q.enterHeat dwell
  let s := activateSpan 0 (forceZero (s.onSpg SpgState.atHeat))
  let s := s.onSlt fun t => t.enterHeat s.profile s.spg.scale s.high (decide (0 < dwell))
  let s := s.onQch fun q => { q with patternMark := some (quenchPoint s.profile s.high) }
  let s := if 0 < dwell then s else beginTracking s
  raiseBlocked blocked (announce prev none (reformQuench s))

/-- CNV reports the converter on (R134): RUNNING, and SEQ moves from IGNITE to heat (R46). -/
def converterOn (s : State) : State :=
  if s.cnv.onSeen then
    let s := s.onCnv CnvState.run
    if s.seq.scanState = .ignite then entryToHeat s else s
  else s

/-- Entry to IGNITE (R46): CNV is directed to start. -/
def enterIgnite (s : State) : State :=
  let prev := s.seq.scanState
  let s := s.onSeq fun q => { q with scanState := .ignite }
  converterOn ((announce prev none (reformQuench s)).onCnv CnvState.start)

/-- The end of approach (R45): the high mark becomes x_0, the next dwell vertex is found, and the scan moves on. -/
def endOfApproach (s : State) : State :=
  let s := s.onAxc fun a =>
    { a with highMark := some s.profile.first, nextDwell := nextDwellAbove s.profile.vertices 0 }
  match s.seq.kind with
  | .production => enterIgnite s
  | .dry => entryToHeat s

/-- The three conditions of R45. -/
def State.approachDone (s : State) : Bool :=
  s.seq.scanState == .approach && s.axc.posReport && s.axc.bandReport
    && (s.seq.kind == .dry || s.cnv.state == .off)

/-- SEQ examines the end of approach (R45). -/
def examineApproach (s : State) : State := if s.approachDone then endOfApproach s else s

end Sys2Proof.Machine
end

