-- ==== Sys2Proof/Machine/Orders.lean ====
section
/-! DEFINITION. Starting a scan (chapter 9): the start conditions, a START taken, a START edge, ORDER notices. -/

namespace Sys2Proof.Machine

/-- An ORDER notice: order tag (0 for none), reason, queue length, scan kind (0xFF for an event other than a start
taken) (R173, Table 11-11). -/
def orderNotice (tag : Nat) (reason : Status) (kind : Option ScanKind) (s : State) : State :=
  notice .order
    (beBytes 2 tag ++ [byteOf reason.code, byteOf s.ord.queue.length] ++ beOpt 1 (kind.map ScanKind.code)) s

/-- The order queue changed, and LAMP_READY re-formed (R156, R162). -/
def setQueue (q : List Order) (s : State) : State := reformLamps (s.onOrd fun o => { o with queue := q })

/-- Why a start is refused (Table 9-2). -/
inductive StartRefusal where
  | plain (status : Status)
  | stale (order : Order)
  | binding (r : BindRefusal)
  deriving DecidableEq, Repr

/-- An order is stale: its slot's revision differs or its slot is WRITING (R167). -/
def Order.isStale (o : Order) (slot : Slot) : Bool := slot.revision != o.revision || slot.state == .writing

/-- The start conditions of Table 9-2 in order; `expected` is 0 for an edge. -/
def judgeStart (expected : Nat) (s : State) : Except StartRefusal (Order × Working) :=
  if s.seq.scanState ≠ .idle then .error (.plain .wrongState)
  else if s.pfm.selector = .locked then .error (.plain .selector)
  else if s.pfm.firstFault.isSome then .error (.plain .faultHeld)
  else
    match s.ord.queue with
    | [] => .error (.plain .noOrder)
    | o :: _ =>
      if expected ≠ 0 ∧ o.tag ≠ expected then .error (.plain .noSuchOrder)
      else if o.isStale (s.pst.slot o.profile) then .error (.stale o)
      else
        match bindOrder s.config (s.pst.slot o.profile) s.ord.patches o with
        | .error r => .error (.binding r)
        | .ok w =>
          if !(s.pfm.motionPermits && s.pfm.heatPermits) then .error (.plain .permitMissing)
          else
            match s.pst.channel with
            | some (.config _) => .error (.plain .busy)
            | _ => .ok (o, w)

/-- The scan kind of a START (R41). -/
def startKind (sel : Selector) : ScanKind :=
  match sel with
  | .setup => .dry
  | .auto | .locked => .production

/-- SEQ at a START taken (Table 3-1). -/
def SeqState.atStart (sel : Selector) : SeqState :=
  { SeqState.reset with scanState := .approach, kind := startKind sel, startSelector := some sel }

/-- AXC at a START taken, the approach move apart (Table 6-2, R113, R123, R127, R129). -/
def AxcState.atStart (a : AxcState) (spindle band : Nat) : AxcState :=
  let a := { a with
    highMark := none, nextDwell := none, followOn := false, reversalOn := false, posReport := false,
    spindleCmd := spindle }.settle
  { a with bandReport := a.inBand band }

/-- The causes raised at the event of a START: VALVE_MISMATCH again for each circuit then in MISMATCH (R97), and
TRAVEL_LIMIT where an OPEN switch forbids the approach (R126). -/
def startCauses (q : QchState) (blocked : Option LimitSwitch) : List Raised :=
  (([.ringA, .ringB, .flood] : List Circuit).filter fun c => (q.circuit c).state == .mismatch).map
      (fun c => ⟨.valveMismatch, .circuit c⟩)
    ++ blocked.toList.map fun w => ⟨.travelLimit, .limitSwitch w⟩

/-- AXC at the event of a START whose approach is forbidden: a quick stop (R123). -/
def AxcState.startBlocked (a : AxcState) (blocked : Option LimitSwitch) : AxcState :=
  if blocked.isSome then a.quickStop else a

/-- The blocks at a START taken (R169 steps 1 to 5, R44), the STATE notice built; with the switch that forbids the
approach, if one does. -/
def bindStart (o : Order) (w : Working) (s : State) : State × Option LimitSwitch :=
  let prev := s.seq.scanState
  let s := s.onOrd fun d =>
    { d with queue := d.queue.drop 1, running := some o, working := some w, summary := none }
  let s := s.onPfm fun p => { p with resultGood := false, resultReject := false }
  let s := s.onSeq fun _ => SeqState.atStart s.pfm.selector
  let s := (s.onSlt fun _ => SltState.atStart w).onSpg fun _ => SpgState.atStart
  let s := s.onQch QchState.patternAtStart
  let a := s.axc.atStart (w.profile.vertex 0).plan.spindle s.config.rotationBand
  let move := a.giveTarget s.config.accel .approach w.profile.first
  (announce prev none (reformQuench (s.onAxc fun _ => move.axc)), move.blocked)

/-- A START taken (R169): binding and the move to APPROACH, the causes raised at that event, the ORDER notice. -/
def takeStart (o : Order) (w : Working) (s : State) : State :=
  let bound := bindStart o w s
  let s' := raiseAll (startCauses s.qch bound.2) (bound.1.onAxc fun a => a.startBlocked bound.2)
  orderNotice o.tag .ok (some (startKind s.pfm.selector)) s'

/-- A stale head order removed, with its ORDER notice (R167). -/
def removeStale (o : Order) (s : State) : State :=
  orderNotice o.tag .staleProfile none (setQueue (s.ord.queue.drop 1) s)

/-- The status of a refusal of binding. -/
def BindRefusal.status : BindRefusal → Status
  | .profileInvalid _ _ => .profileInvalid
  | .patchInvalid _ _ _ => .patchInvalid

/-- The reply content of a refusal of binding (Table 11-10). -/
def BindRefusal.content : BindRefusal → List Byte
  | .profileInvalid code v => [byteOf code.code, byteOf v]
  | .patchInvalid code v k => [byteOf code.code, byteOf v, byteOf k]

/-- The tag of the head order, 0 for none (R186). -/
def headTag (q : List Order) : Nat := (q.head?.map Order.tag).getD 0

/-- A START edge judged as a start (R165, R166). -/
def startByEdge (s : State) : State :=
  match judgeStart 0 s with
  | .ok (o, w) => takeStart o w s
  | .error (.plain st) => orderNotice (headTag s.ord.queue) st none s
  | .error (.stale o) => removeStale o s
  | .error (.binding r) => orderNotice (headTag s.ord.queue) r.status none s

/-- What a START edge does (R165, R184). -/
def startEdge (s : State) : State :=
  if s.lif.restartPending then s
  else
    match s.ord.queue with
    | [] => orderNotice 0 .noOrder none s
    | o :: _ => if o.lineStart then startByEdge s else orderNotice o.tag .notInControl none s

end Sys2Proof.Machine
end

