-- ==== Sys2Proof/Machine/Operands.lean ====
section
/-! DEFINITION. The request kinds with their codes, payload lengths and authority (Tables 10-3 and 11-2), and the
fields their payloads carry. -/

namespace Sys2Proof.Machine

/-- The 29 request kinds, in the order of Table 11-2. -/
inductive RequestKind where
  | getStatus | getLive | getFaults | getOrders | getProfileInfo | readProfile | getPatches | getConfig | getSummary
  | readSlices | setNotices | takeControl | releaseControl | enqueueOrder | cancelOrder | startScan | acknowledge
  | clearFaults | trimAdjust | loadPatch | clearPatch | beginProfile | profileVertices | commitProfile | eraseProfile
  | writeConfig | jog | restart | abortScan
  deriving DecidableEq, Repr

/-- The kinds in code order, 0x01 first. -/
def requestKinds : List RequestKind :=
  [.getStatus, .getLive, .getFaults, .getOrders, .getProfileInfo, .readProfile, .getPatches, .getConfig, .getSummary,
    .readSlices, .setNotices, .takeControl, .releaseControl, .enqueueOrder, .cancelOrder, .startScan, .acknowledge,
    .clearFaults, .trimAdjust, .loadPatch, .clearPatch, .beginProfile, .profileVertices, .commitProfile,
    .eraseProfile, .writeConfig, .jog, .restart, .abortScan]

/-- The kind byte of a request (Table 11-2). -/
def RequestKind.code : RequestKind → Byte
  | .getStatus => 0x01 | .getLive => 0x02 | .getFaults => 0x03 | .getOrders => 0x04 | .getProfileInfo => 0x05
  | .readProfile => 0x06 | .getPatches => 0x07 | .getConfig => 0x08 | .getSummary => 0x09 | .readSlices => 0x0A
  | .setNotices => 0x0B | .takeControl => 0x0C | .releaseControl => 0x0D | .enqueueOrder => 0x0E
  | .cancelOrder => 0x0F | .startScan => 0x10 | .acknowledge => 0x11 | .clearFaults => 0x12 | .trimAdjust => 0x13
  | .loadPatch => 0x14 | .clearPatch => 0x15 | .beginProfile => 0x16 | .profileVertices => 0x17
  | .commitProfile => 0x18 | .eraseProfile => 0x19 | .writeConfig => 0x1A | .jog => 0x1B | .restart => 0x1C
  | .abortScan => 0x1D

/-- The request a kind byte names (Table 11-2). -/
def requestOf (kind : Byte) : Option RequestKind := requestKinds.find? fun k => k.code == kind

/-- The payload length of a request (Table 11-2); PROFILE_VERTICES has none of its own. -/
def RequestKind.length : RequestKind → Option Nat
  | .getStatus | .getLive | .getFaults | .getOrders | .getProfileInfo | .getPatches | .getConfig | .getSummary
  | .takeControl | .releaseControl | .acknowledge | .clearFaults | .restart | .abortScan => some 0
  | .setNotices | .clearPatch | .eraseProfile => some 1
  | .readProfile | .cancelOrder | .startScan | .trimAdjust | .commitProfile => some 2
  | .readSlices => some 3
  | .jog => some 4
  | .loadPatch => some 19
  | .enqueueOrder => some 24
  | .writeConfig => some 45
  | .beginProfile => some 51
  | .profileVertices => none

/-- Whether the payload has the length its kind requires. -/
def RequestKind.lengthOk (k : RequestKind) (payload : List Byte) : Bool :=
  match k.length with
  | none => true
  | some n => payload.length == n

/-- The part of READ_PROFILE (Table 11-2): the header, or a chunk. -/
inductive ProfilePart where
  | header
  | chunk (k : Nat)
  deriving DecidableEq, Repr

def readPart (b : Byte) : ProfilePart := if b = 0xFF then .header else .chunk b.toNat

/-- The order an ENQUEUE_ORDER carries, its revision still to come (Table 11-2). -/
def readOrder (bs : List Byte) : Order where
  tag := field bs 0 2
  profile := field bs 2 1
  revision := 0
  shaft := (bs.drop 3).take 20
  lineStart := byteAt bs 23 != 0

/-- A shaft identifier holds 1 to 20 printable characters (R163, Table 11-2 note 2). -/
def shaftOk (shaft : List Byte) : Bool := textOk shaft && (shaft.headD 0 != 0)

/-- The ranges of an order's fields (R163 condition 3). -/
def orderFieldsOk (o : Order) : Bool := inRange 1 65535 o.tag && inRange 1 32 o.profile && shaftOk o.shaft

/-- The patch a LOAD_PATCH carries (Table 11-2). -/
def readPatch (bs : List Byte) : Patch where
  profile := field bs 1 1
  vertex := field bs 2 1
  plan := VertexPlan.read bs 3

end Sys2Proof.Machine
end

