-- ==== Sys2Proof/Machine/Replies.lean ====
section
/-! DEFINITION. The contents of the read replies (chapter 11, sections 11.4 to 11.8), each after its status code. -/

namespace Sys2Proof.Machine

/-! ### GET_STATUS (Table 11-9, R185) -/

def statusSeq (q : SeqState) : List Byte :=
  [byteOf q.scanState.code, byteOf q.kind.code] ++ beOpt 1 (q.startSelector.map Selector.code)
    ++ [byteOf (QuenchOutPhase.code q.phase)] ++ beBytes 4 q.clock ++ beOpt 1 q.dwellVertex ++ beOpt 2 q.timer
    ++ beOpt 1 (q.abortCause.map Cause.code) ++ [byteOf (AbortAction.code q.abortAction)]
    ++ beOpt 1 (q.abortState.map ScanState.code) ++ beOpt 1 (q.escalation.map Cause.code)

def statusSpg (g : SpgState) : List Byte :=
  beBytes 2 g.scale ++ beBytes 2 (g.pendingScale.getD 0) ++ [byteOf g.trim.code] ++ beInt16 g.lastCorr
    ++ beOpt 1 (g.span.map ActiveSpan.index)

def statusAxc (a : AxcState) : List Byte :=
  [byteOf a.travel.code, byteOf (MoveKind.code a.moveKind)] ++ beOpt 4 a.target ++ beBytes 4 a.cmdPos
    ++ [byteOf a.direction.code] ++ beBytes 2 (a.holdSpeed.getD 0) ++ beOpt 1 a.nextDwell ++ beBytes 2 a.waitTime
    ++ beBytes 2 a.stallTimer ++ [bitsByte [a.upperOpen, a.lowerOpen]] ++ beBytes 2 a.spindleCmd
    ++ beBytes 2 a.spindleCode ++ [byteOf a.rotation.code] ++ beBytes 2 a.rotationTimer
    ++ [flagByte a.reportsStopped]

def statusCnv (c : CnvState) (ready : Bool) : List Byte :=
  [byteOf c.state.code, flagByte c.enable] ++ beBytes 2 c.setpoint ++ beOpt 2 c.startTimer ++ beOpt 2 c.stopTimer
    ++ [flagByte c.stuck] ++ beBytes 2 c.deviationTimer ++ [bitsByte [c.convOn, c.convFault, ready]]
    ++ beBytes 2 c.derate ++ [flagByte c.hot]

def statusCircuit (c : CircuitRec) : List Byte :=
  [byteOf c.state.code, bitsByte [c.demand, c.output, c.readback.getD false, c.readback.isSome]]
    ++ beBytes 2 c.flow ++ [byteOf c.check.code, bitsByte [c.established, c.flowLow]]

def statusQch (s : State) : List Byte :=
  statusCircuit s.qch.ringA ++ statusCircuit s.qch.ringB ++ statusCircuit s.qch.flood
    ++ beBytes 2 s.qch.patternCount ++ [byteOf s.stepPosition]
    ++ beOpt 1 (s.slt.quenching?.map SliceRec.pattern)

/-- One bit for each permit input, bits 0 to 5 in the order of Table 8-1; bits 6 and 7 are 0 (log entry 52). -/
def permitBits (v : PerPermit Bool) : Byte :=
  bitsByte [v.coolantFlowOk, v.guardClosed, v.estopClear, v.convReady, v.driveReady, v.quenchPressureOk]

/-- The selector inputs byte: bits 0 and 1 the levels, 2 and 3 the decoded position, 4 code invalid; bits 5 to 7 are 0
(log entry 52). -/
def selectorBits (p : PfmState) : Byte :=
  byteOf ((if p.selSetup then 1 else 0) + (if p.selAuto then 2 else 0) + 4 * p.decoded.code
    + (if p.codeInvalid then 16 else 0))

def statusPfm (p : PfmState) : List Byte :=
  [permitBits p.permitInputs, permitBits p.permits, bitsByte [p.heatPermits, p.motionPermits, p.quenchPermit],
    selectorBits p, byteOf p.selector.code, flagByte p.firstFault.isNone, byteOf p.resetCause.code,
    flagByte p.lampReady, byteOf p.lampFault.code, flagByte p.resultGood, flagByte p.resultReject]

def statusPort (p : PortState) : List Byte :=
  [p.mask.setWidth 8, bitsByte [p.overrun, p.dropped], byteOf p.buffer.length, byteOf p.tx.length]

def statusLif (l : LifState) (p : Port) : List Byte :=
  [byteOf (holderCode l.holder), byteOf (portCode p)] ++ statusPort l.line ++ statusPort l.service

/-- The 108 bytes of GET_STATUS for the port the request came on. -/
def statusContent (p : Port) (s : State) : List Byte :=
  statusSeq s.seq ++ statusSpg s.spg ++ statusAxc s.axc ++ statusCnv s.cnv s.pfm.permits.convReady ++ statusQch s
    ++ statusPfm s.pfm ++ statusLif s.lif p

/-! ### The other reads -/

/-- The 25 bytes of GET_LIVE (section 11.7). -/
def liveContent (s : State) : List Byte :=
  beOpt 4 s.axc.highMark ++ beBytes 4 s.axc.x ++ beBytes 2 s.spg.pCmd ++ beBytes 2 s.cnv.pMeas
    ++ beBytes 2 s.axc.vCmd ++ beBytes 2 s.axc.spindleSpeed ++ beBytes 2 s.cnv.tMeas ++ [flagByte s.cnv.tValid]
    ++ beOpt 2 s.cnv.coolant ++ beOpt 2 s.slt.underCoil ++ beOpt 2 s.slt.atQuench

/-- The 20 bytes of a capture in the field order of R151. -/
def Capture.encode (c : Capture) : List Byte :=
  [byteOf c.kind.code, byteOf c.item.code, byteOf c.scanState.code] ++ beBytes 4 c.position ++ beOpt 4 c.highMark
    ++ beOpt 2 c.slice ++ beOpt 1 c.vertex ++ beBytes 4 c.clock ++ beBytes 2 (c.orderTag.getD 0)

/-- The 41 bytes of GET_FAULTS (R155). -/
def faultsContent (p : PfmState) : List Byte :=
  (match p.firstFault with
    | none => List.replicate 21 0
    | some c => 1 :: c.encode) ++ p.counts.map byteOf ++ [byteOf p.resetCause.code]

/-- The 26 bytes of an order record (section 11.4). -/
def Order.encode (o : Order) : List Byte :=
  beBytes 2 o.tag ++ [byteOf o.profile] ++ beBytes 2 o.revision ++ o.shaft ++ [flagByte o.lineStart]

def blankOrder : List Byte := List.replicate 26 0

/-- The order records of a queue, unused ones all 0. -/
def orderRecords : Nat → List Order → List Byte
  | 0, _ => []
  | n + 1, [] => blankOrder ++ orderRecords n []
  | n + 1, o :: os => o.encode ++ orderRecords n os

/-- GET_ORDERS (R173, section 11.4). With no order running the 26 bytes of the running record are 0 (DESIGN CHOICE, log
entry 51). -/
def ordersContent (d : OrdState) : List Byte :=
  [byteOf d.queue.length] ++ orderRecords 4 d.queue
    ++ (match d.running with
      | none => 0 :: blankOrder
      | some o => 1 :: o.encode) ++ [flagByte d.startLevel]

/-- The write channel byte: 0 idle, the slot being written, 0x21 the configuration record (Table 11-10). -/
def channelCode : Option WriteJob → Nat
  | none => 0
  | some (.commit n _) => n
  | some (.erase n) => n
  | some (.config _) => 0x21

/-- The vertex count a slot reports: that of the stored profile when VALID, else 0 (R14). -/
def Slot.reportedCount (v : Slot) : Nat :=
  match v.state with
  | .valid => v.profile.vertices.length
  | .empty | .invalid | .writing => 0

/-- GET_PROFILE_INFO (R14, Table 11-10). -/
def profileInfoContent (p : PstState) : List Byte :=
  (p.slots.flatMap fun v => byteOf v.state.code :: beBytes 2 v.revision ++ [byteOf v.reportedCount])
    ++ [byteOf (channelCode p.channel), flagByte p.stagedHeader.isSome, byteOf p.supplied]

/-- The 19 bytes of a patch record (section 11.4). In a disabled slot's the 18 after the first are 0 (DESIGN CHOICE, log
entry 50). -/
def patchRecord : Option Patch → List Byte
  | none => List.replicate 19 0
  | some p => [1, byteOf p.profile, byteOf p.vertex] ++ p.plan.encode

/-- GET_PATCHES (R171, section 11.4). -/
def patchesContent (d : OrdState) : List Byte := d.patches.flatMap patchRecord

/-- Whether a configuration write is in progress (R19). -/
def PstState.writingConfig (p : PstState) : Bool :=
  match p.channel with
  | some (.config _) => true
  | some (.commit _ _) | some (.erase _) | none => false

/-- GET_CONFIG (R19, section 11.6). -/
def configContent (p : PstState) : List Byte :=
  p.inForce.encode ++ [byteOf p.source.code, flagByte p.writingConfig]

/-- The set of patch slots used: bit n − 1 for patch slot n (Table 11-7); bits 4 to 7 are 0 (log entry 52). -/
def patchBits (used : List Nat) : Byte := bitsByte ((List.range 4).map fun k => used.contains (k + 1))

/-- The 64 bytes of a scan summary (Table 11-7). -/
def Summary.encode (m : Summary) : List Byte :=
  beBytes 2 m.tag ++ m.shaft ++ [byteOf m.profile] ++ beBytes 2 m.revision ++ [patchBits m.patches]
    ++ [byteOf m.kind.code, byteOf m.result.code] ++ beOpt 1 (m.cause.map Cause.code)
    ++ m.flagCounts.flatMap (beBytes 2) ++ beBytes 4 m.energy ++ beBytes 4 m.time
    ++ [flagByte m.largestTransfer.isSome] ++ beBytes 4 (m.largestTransfer.getD 0)

/-- GET_SUMMARY (R173, section 11.5). -/
def summaryContent (d : OrdState) : List Byte :=
  match d.summary with
  | none => List.replicate 65 0
  | some m => 1 :: m.encode

/-- The state, ring mask and pattern byte of a slice record (Table 11-6). -/
def slicePacked (r : SliceRec) : Byte :=
  byteOf (r.state.code + 8 * (r.ringMask.toNat % 4) + 32 * r.pattern)

/-- The 36 bytes of a slice record (Table 11-6); leave and enter times in 3 bytes, transfer and quench times in 2,
limited (R186). -/
def SliceRec.encode (r : SliceRec) : List Byte :=
  beBytes 3 r.start ++ beBytes 2 r.length ++ [byteOf r.gov, slicePacked r] ++ beBytes 2 r.flags.toNat
    ++ [bitsByte [r.heatScale.isSome, r.eTgt.isSome, r.specific.isSome, r.deviation.isSome, r.leaveTime.isSome,
      r.enterTime.isSome, r.transferTime.isSome, r.quenchTime.isSome]]
    ++ beBytes 4 r.eAct ++ beBytes 2 (r.heatScale.getD 0) ++ beBytes 4 (r.eTgt.getD 0)
    ++ beBytes 2 (r.specific.getD 0) ++ beInt16 (r.deviation.getD 0) ++ beBytes 2 r.quarterTurns
    ++ beBytes 3 (limited 16777215 r.leaveTime) ++ beBytes 3 (limited 16777215 r.enterTime)
    ++ beBytes 2 (limited top16 r.transferTime) ++ beBytes 2 (limited top16 r.quenchTime)

/-- READ_SLICES (R93, section 11.5): the records from an index upward, cut short at N − 1. -/
def slicesContent (t : SltState) (first count : Nat) : List Byte :=
  let recs := (t.table.drop first).take count
  beBytes 2 first ++ [byteOf recs.length] ++ beBytes 2 t.count ++ beOpt 2 t.underCoil ++ beOpt 2 t.atQuench
    ++ [byteOf t.transit.length] ++ beBytes 4 t.unassigned ++ recs.flatMap SliceRec.encode

/-- A header part of READ_PROFILE (section 11.4). -/
def headerPart (revision count : Nat) (h : Header) : List Byte :=
  beBytes 2 revision ++ [byteOf count] ++ h.encode

/-- A chunk part of READ_PROFILE: vertices 12k to 12k + 11, cut short (R15). -/
def chunkPart (revision k : Nat) (vs : List Vertex) : List Byte :=
  let part := (vs.drop (12 * k)).take 12
  beBytes 2 revision ++ [byteOf k, byteOf part.length] ++ part.flatMap Vertex.encode

end Sys2Proof.Machine
end

