-- ==== Sys2Proof/Machine/Requests.lean ====
section
/-! DEFINITION. How each request is judged by its owner (Table 10-3): the state after it and its reply. Conditions stand
in the order of the owner's rule. -/

namespace Sys2Proof.Machine

/-- A request judged: the state after it and the reply to it (R177). -/
structure Served where
  state : State
  reply : Reply
  deriving DecidableEq, Repr

/-- A refusal that changes nothing. -/
def refuse (st : Status) (s : State) : Served := ⟨s, ⟨st, []⟩⟩

/-- OK with content. -/
def answer (content : List Byte) (s : State) : Served := ⟨s, ⟨.ok, content⟩⟩

/-- The port holds authority (R177). -/
def State.holds (s : State) (p : Port) : Bool := s.lif.holder == some p

/-- A control request: authority first, then the frame length (R177). -/
def controlled (k : RequestKind) (p : Port) (bs : List Byte) (s : State) (served : Served) : Served :=
  if !s.holds p then refuse .notInControl s
  else if !k.lengthOk bs then refuse .badLength s
  else served

/-- A request that needs no authority: the frame length (R177). -/
def uncontrolled (k : RequestKind) (bs : List Byte) (s : State) (served : Served) : Served :=
  if !k.lengthOk bs then refuse .badLength s else served

/-! ### Reads -/

/-- GET_STATUS: the reply, then the requesting port's OVERRUN and NOTICES_DROPPED flags are cleared (R185). -/
def serveGetStatus (p : Port) (bs : List Byte) (s : State) : Served :=
  uncontrolled .getStatus bs s <|
    answer (statusContent p s) (s.onLif fun l => l.onPort p fun q => { q with overrun := false, dropped := false })

/-- GET_LIVE (R185). -/
def serveGetLive (bs : List Byte) (s : State) : Served := uncontrolled .getLive bs s (answer (liveContent s) s)

/-- GET_FAULTS (R155). -/
def serveGetFaults (bs : List Byte) (s : State) : Served := uncontrolled .getFaults bs s (answer (faultsContent s.pfm) s)

/-- GET_ORDERS (R173). -/
def serveGetOrders (bs : List Byte) (s : State) : Served := uncontrolled .getOrders bs s (answer (ordersContent s.ord) s)

/-- GET_PROFILE_INFO (R14). -/
def serveGetProfileInfo (bs : List Byte) (s : State) : Served :=
  uncontrolled .getProfileInfo bs s (answer (profileInfoContent s.pst) s)

/-- A part of a profile of `count` vertices; a chunk must start below the count (R15 condition 5). -/
def servePart (revision count : Nat) (p : Profile) (part : ProfilePart) (s : State) : Served :=
  match part with
  | .header => answer (headerPart revision count p.header) s
  | .chunk k =>
    if 12 * k < count then answer (chunkPart revision k (p.vertices.take count)) s else refuse .badValue s

/-- READ_PROFILE of the staging buffer (R15). -/
def serveReadStaging (part : ProfilePart) (s : State) : Served :=
  match s.pst.stagedHeader with
  | none => refuse .wrongState s
  | some h => servePart 0 s.pst.supplied ⟨h, s.pst.stagedVertices⟩ part s

/-- READ_PROFILE of the working profile (R15). -/
def serveReadWorking (part : ProfilePart) (s : State) : Served :=
  match s.ord.working with
  | none => refuse .wrongState s
  | some w => servePart w.revision w.profile.vertices.length w.profile part s

/-- READ_PROFILE of a slot (R15). -/
def serveReadSlot (n : Nat) (part : ProfilePart) (s : State) : Served :=
  match (s.pst.slot n).state with
  | .writing => refuse .busy s
  | .empty | .invalid => refuse .profileInvalid s
  | .valid =>
    servePart (s.pst.slot n).revision (s.pst.slot n).profile.vertices.length (s.pst.slot n).profile part s

/-- READ_PROFILE (R15). -/
def serveReadProfile (bs : List Byte) (s : State) : Served :=
  uncontrolled .readProfile bs s <|
    if field bs 0 1 = 0 then serveReadStaging (readPart (byteAt bs 1)) s
    else if field bs 0 1 = 255 then serveReadWorking (readPart (byteAt bs 1)) s
    else if field bs 0 1 ≤ 32 then serveReadSlot (field bs 0 1) (readPart (byteAt bs 1)) s
    else refuse .badValue s

/-- GET_PATCHES (R171). -/
def serveGetPatches (bs : List Byte) (s : State) : Served :=
  uncontrolled .getPatches bs s (answer (patchesContent s.ord) s)

/-- GET_CONFIG (R19). -/
def serveGetConfig (bs : List Byte) (s : State) : Served := uncontrolled .getConfig bs s (answer (configContent s.pst) s)

/-- GET_SUMMARY (R173). -/
def serveGetSummary (bs : List Byte) (s : State) : Served :=
  uncontrolled .getSummary bs s (answer (summaryContent s.ord) s)

/-- READ_SLICES (R93). -/
def serveReadSlices (bs : List Byte) (s : State) : Served :=
  uncontrolled .readSlices bs s <|
    if !inRange 1 6 (field bs 2 1) then refuse .badValue s
    else if s.slt.table.isEmpty then refuse .wrongState s
    else if s.slt.count ≤ field bs 0 2 then refuse .badValue s
    else answer (slicesContent s.slt (field bs 0 2) (field bs 2 1)) s

/-! ### Link requests -/

/-- SET_NOTICES (R180). -/
def serveSetNotices (p : Port) (bs : List Byte) (s : State) : Served :=
  uncontrolled .setNotices bs s <|
    if 64 ≤ (byteAt bs 0).toNat then refuse .badValue s
    else
      answer [byteAt bs 0] (s.onLif fun l => l.onPort p fun q => { q with mask := (byteAt bs 0).setWidth 6 })

/-- A reply that carries the holder after the request, on every outcome (Table 11-10). -/
def holderReply (st : Status) (s : State) : Served := ⟨s, ⟨st, [byteOf (holderCode s.lif.holder)]⟩⟩

/-- Authority given to a holder. -/
def setHolder (h : Option Port) (s : State) : State := s.onLif fun l => { l with holder := h }

/-- TAKE_CONTROL (R181). -/
def serveTakeControl (p : Port) (bs : List Byte) (s : State) : Served :=
  if !RequestKind.takeControl.lengthOk bs then holderReply .badLength s
  else
    match s.pfm.selector with
    | .locked => holderReply .selector s
    | .setup | .auto =>
      match s.lif.holder with
      | none => holderReply .ok (setHolder (some p) s)
      | some q =>
        if q = p then holderReply .ok s
        else
          match p, s.pfm.selector with
          | .line, _ => holderReply .notInControl s
          | .service, .setup => holderReply .ok (setHolder (some .service) s)
          | .service, _ => holderReply .selector s

/-- RELEASE_CONTROL (R182; log entry 16). -/
def serveReleaseControl (p : Port) (bs : List Byte) (s : State) : Served :=
  if !s.holds p then holderReply .notInControl s
  else if !RequestKind.releaseControl.lengthOk bs then holderReply .badLength s
  else holderReply .ok (setHolder none s)

/-- RESTART (R184). -/
def serveRestart (p : Port) (bs : List Byte) (s : State) : Served :=
  controlled .restart p bs s <|
    if s.scanRunning then refuse .wrongState s
    else if s.pst.channel.isSome then refuse .busy s
    else answer [] (s.onLif fun l => { l with restartPending := true })

/-! ### Orders and patches -/

/-- ENQUEUE_ORDER (R163). -/
def serveEnqueueOrder (p : Port) (bs : List Byte) (s : State) : Served :=
  controlled .enqueueOrder p bs s <|
    let o := readOrder bs
    let slot := s.pst.slot o.profile
    if !orderFieldsOk o then refuse .badValue s
    else if 4 ≤ s.ord.queue.length then refuse .queueFull s
    else if s.ord.queue.any fun q => q.tag == o.tag then refuse .duplicateTag s
    else if slot.state = .writing then refuse .busy s
    else if slot.state ≠ .valid then refuse .profileInvalid s
    else
      let s := setQueue (s.ord.queue ++ [{ o with revision := slot.revision }]) s
      answer [byteOf s.ord.queue.length] (orderNotice o.tag .ok none s)

/-- CANCEL_ORDER (R164). -/
def serveCancelOrder (p : Port) (bs : List Byte) (s : State) : Served :=
  controlled .cancelOrder p bs s <|
    if s.ord.queue.any fun q => q.tag == field bs 0 2 then
      let s := setQueue (s.ord.queue.filter fun q => q.tag != field bs 0 2) s
      answer [byteOf s.ord.queue.length] (orderNotice (field bs 0 2) .ok none s)
    else refuse .noSuchOrder s

/-- START_SCAN (R165, R166, R169). -/
def serveStartScan (p : Port) (bs : List Byte) (s : State) : Served :=
  controlled .startScan p bs s <|
    match judgeStart (field bs 0 2) s with
    | .ok (o, w) => answer (beBytes 2 o.tag ++ [byteOf (startKind s.pfm.selector).code]) (takeStart o w s)
    | .error (.plain st) => refuse st s
    | .error (.stale o) => ⟨removeStale o s, ⟨.staleProfile, []⟩⟩
    | .error (.binding r) => ⟨s, ⟨r.status, r.content⟩⟩

/-- Another enabled patch slot names the same profile and vertex (R170 condition 7); `n` is the slot being loaded. -/
def patchConflicts (patches : List (Option Patch)) (n : Nat) (q : Patch) : Bool :=
  (List.range patches.length).any fun k =>
    k + 1 != n && match patches.getD k none with
      | none => false
      | some r => r.profile == q.profile && r.vertex == q.vertex

/-- LOAD_PATCH (R170). -/
def serveLoadPatch (p : Port) (bs : List Byte) (s : State) : Served :=
  controlled .loadPatch p bs s <|
    let n := field bs 0 1
    let q := readPatch bs
    if !(inRange 1 4 n && inRange 1 32 q.profile) then refuse .badValue s
    else if s.scanRunning then refuse .busy s
    else if (s.pst.slot q.profile).state ≠ .valid then refuse .profileInvalid s
    else if (s.pst.slot q.profile).profile.vertices.length ≤ q.vertex then refuse .badValue s
    else if patchConflicts s.ord.patches n q then refuse .patchConflict s
    else answer [] (s.onOrd fun d => { d with patches := d.patches.set (n - 1) (some q) })

/-- CLEAR_PATCH (R171). -/
def serveClearPatch (p : Port) (bs : List Byte) (s : State) : Served :=
  controlled .clearPatch p bs s <|
    let n := field bs 0 1
    if 4 < n then refuse .badValue s
    else if s.scanRunning then refuse .busy s
    else
      answer [] (s.onOrd fun d =>
        { d with patches := if n = 0 then List.replicate 4 none else d.patches.set (n - 1) none })

/-! ### Scan requests -/

/-- Every quench circuit is CLOSED (R55). -/
def QchState.allClosed (q : QchState) : Bool :=
  q.ringA.state == .closed && q.ringB.state == .closed && q.flood.state == .closed

/-- The plant is at rest (R55). -/
def State.plantAtRest (s : State) : Bool := s.cnv.state == .off && s.qch.allClosed && s.axc.reportsStopped

/-- HALTED to IDLE (R55). -/
def acknowledged (s : State) : State :=
  announce .halted none (reformQuench (s.onSeq fun q => { q with scanState := .idle }))

/-- ACKNOWLEDGE (R55). -/
def serveAcknowledge (p : Port) (bs : List Byte) (s : State) : Served :=
  controlled .acknowledge p bs s <|
    if s.seq.scanState ≠ .halted then refuse .wrongState s
    else if s.plantAtRest then answer [] (acknowledged s)
    else refuse .busy s

/-- The FAULT notice of a clear (Table 11-11 note 2). -/
def clearNoticePayload (s : State) : List Byte :=
  [0, 0, byteOf s.seq.scanState.code] ++ beBytes 4 s.seq.clock ++ [0, 0]

/-- The first-fault record and the summary emptied (R154). -/
def clearFaults (s : State) : State :=
  let s := s.onPfm fun q => { q with firstFault := none, counts := List.replicate 19 0 }
  notice .fault (clearNoticePayload s) (reformLamps s)

/-- CLEAR_FAULTS (R154). -/
def serveClearFaults (p : Port) (bs : List Byte) (s : State) : Served :=
  controlled .clearFaults p bs s <|
    if s.scanRunning then refuse .wrongState s else answer [] (clearFaults s)

/-- TRIM_ADJUST (R28). -/
def serveTrimAdjust (p : Port) (bs : List Byte) (s : State) : Served :=
  controlled .trimAdjust p bs s <|
    if s.seq.scanState.isHeat then
      answer (beBytes 2 (clampNat 800 1200 (field bs 0 2)))
        (s.onSpg fun g => { g with pendingScale := some (clampNat 800 1200 (field bs 0 2)) })
    else refuse .wrongState s

/-- A JOG may be given now: the travel state is STOPPED, or MOVING_TO of kind JOG (R118 condition 7). -/
def AxcState.mayJog (a : AxcState) : Bool :=
  a.travel == .stopped || (a.travel == .movingTo && a.moveKind == some .jog)

/-- The limit switch does not forbid a JOG to a target (R118 condition 8). -/
def AxcState.jogFree (a : AxcState) (target : Nat) : Bool :=
  target == a.x || !a.isOpen (if a.x < target then LimitSwitch.upper else LimitSwitch.lower)

/-- The jog begun or redirected (R117). -/
def beginJog (target : Nat) (s : State) : State :=
  let move := s.axc.giveTarget s.config.accel .jog target
  raiseBlocked move.blocked (s.onAxc fun _ => move.axc)

/-- JOG (R118). -/
def serveJog (p : Port) (bs : List Byte) (s : State) : Served :=
  if !s.holds p then refuse .notInControl s
  else if s.pfm.selector ≠ .setup then refuse .selector s
  else if !RequestKind.jog.lengthOk bs then refuse .badLength s
  else if s.seq.scanState ≠ .idle then refuse .wrongState s
  else if s.config.travelLength < field bs 0 4 then refuse .badValue s
  else if !s.pfm.motionPermits then refuse .permitMissing s
  else if !s.axc.mayJog then refuse .busy s
  else if !s.axc.jogFree (field bs 0 4) then refuse .wrongState s
  else answer [] (beginJog (field bs 0 4) s)

/-- ABORT_SCAN (R65): the state found and the abort action in force after it. -/
def serveAbortScan (bs : List Byte) (s : State) : Served :=
  uncontrolled .abortScan bs s <|
    let s' := judge .hostAbort s
    answer [byteOf s.seq.scanState.code, byteOf (AbortAction.code s'.seq.abortAction)] s'

/-! ### Store requests -/

/-- BEGIN_PROFILE (R9). -/
def serveBeginProfile (p : Port) (bs : List Byte) (s : State) : Served :=
  controlled .beginProfile p bs s <|
    answer [] (s.onPst fun q => { q with stagedHeader := some (Header.read bs), supplied := 0 })

/-- Vertices written into a list at an index upward. -/
def writeVertices : List Vertex → Nat → List Vertex → List Vertex
  | vs, _, [] => vs
  | vs, i, v :: rest => writeVertices (vs.set i v) (i + 1) rest

/-- PROFILE_VERTICES (R10). -/
def serveProfileVertices (p : Port) (bs : List Byte) (s : State) : Served :=
  let first := field bs 0 1
  let count := field bs 1 1
  if !s.holds p then refuse .notInControl s
  else if bs.length < 2 then refuse .badLength s
  else if s.pst.stagedHeader.isNone then refuse .wrongState s
  else if !inRange 1 12 count then refuse .badValue s
  else if bs.length ≠ 2 + 19 * count then refuse .badLength s
  else if s.pst.supplied < first then refuse .badValue s
  else if 96 < first + count then refuse .badValue s
  else
    answer [byteOf (max s.pst.supplied (first + count))] (s.onPst fun q =>
      { q with
        stagedVertices := writeVertices q.stagedVertices first (readVertices bs count 2)
        supplied := max q.supplied (first + count) })

/-- The slot bound by the running scan (R11). -/
def State.boundSlot (s : State) (n : Nat) : Bool :=
  s.scanRunning && (s.ord.working.map Working.source == some n)

/-- A slot write begins: the slot WRITING, the channel busy (R8). -/
def PstState.beginSlotWrite (q : PstState) (n : Nat) (job : WriteJob) : PstState :=
  { q.setSlot n { q.slot n with state := .writing } with channel := some job }

/-- COMMIT_PROFILE (R11). -/
def serveCommitProfile (p : Port) (bs : List Byte) (s : State) : Served :=
  controlled .commitProfile p bs s <|
    let n := field bs 0 1
    let count := field bs 1 1
    if s.pfm.selector = .auto then refuse .selector s
    else if !inRange 1 32 n then refuse .badValue s
    else
      match s.pst.stagedHeader with
      | none => refuse .wrongState s
      | some h =>
        let staged : Profile := ⟨h, s.pst.stagedVertices.take count⟩
        if s.pst.supplied < count then refuse .badValue s
        else if s.pst.channel.isSome then refuse .busy s
        else if s.boundSlot n then refuse .busy s
        else
          match profileCheck s.config staged with
          | some (code, i) => ⟨s, ⟨.profileInvalid, [byteOf code.code, byteOf i]⟩⟩
          | none => answer [] (s.onPst fun q => q.beginSlotWrite n (.commit n staged))

/-- ERASE_PROFILE (R13). -/
def serveEraseProfile (p : Port) (bs : List Byte) (s : State) : Served :=
  controlled .eraseProfile p bs s <|
    let n := field bs 0 1
    if s.pfm.selector = .auto then refuse .selector s
    else if !inRange 1 32 n then refuse .badValue s
    else if s.pst.channel.isSome then refuse .busy s
    else if s.boundSlot n then refuse .busy s
    else if (s.pst.slot n).state = .empty then answer [] s
    else answer [] (s.onPst fun q => q.beginSlotWrite n (.erase n))

/-- WRITE_CONFIG (R18). -/
def serveWriteConfig (p : Port) (bs : List Byte) (s : State) : Served :=
  let c := ConfigRecord.read bs
  if !s.holds p then refuse .notInControl s
  else if s.pfm.selector = .auto then refuse .selector s
  else if !RequestKind.writeConfig.lengthOk bs then refuse .badLength s
  else
    match configCheck c with
    | some n => ⟨s, ⟨.badValue, [byteOf n]⟩⟩
    | none =>
      if s.pst.channel.isSome then refuse .busy s
      else if s.scanRunning then refuse .busy s
      else
        answer [] (s.onPst fun q =>
          { q with channel := some (.config c), stored := { q.stored with writeMark := true } })

/-! ### Dispatch to the owner -/

/-- A request judged by its owner (Table 10-3). -/
def serve (k : RequestKind) (p : Port) (bs : List Byte) (s : State) : Served :=
  match k with
  | .getStatus => serveGetStatus p bs s
  | .getLive => serveGetLive bs s
  | .getFaults => serveGetFaults bs s
  | .getOrders => serveGetOrders bs s
  | .getProfileInfo => serveGetProfileInfo bs s
  | .readProfile => serveReadProfile bs s
  | .getPatches => serveGetPatches bs s
  | .getConfig => serveGetConfig bs s
  | .getSummary => serveGetSummary bs s
  | .readSlices => serveReadSlices bs s
  | .setNotices => serveSetNotices p bs s
  | .takeControl => serveTakeControl p bs s
  | .releaseControl => serveReleaseControl p bs s
  | .enqueueOrder => serveEnqueueOrder p bs s
  | .cancelOrder => serveCancelOrder p bs s
  | .startScan => serveStartScan p bs s
  | .acknowledge => serveAcknowledge p bs s
  | .clearFaults => serveClearFaults p bs s
  | .trimAdjust => serveTrimAdjust p bs s
  | .loadPatch => serveLoadPatch p bs s
  | .clearPatch => serveClearPatch p bs s
  | .beginProfile => serveBeginProfile p bs s
  | .profileVertices => serveProfileVertices p bs s
  | .commitProfile => serveCommitProfile p bs s
  | .eraseProfile => serveEraseProfile p bs s
  | .writeConfig => serveWriteConfig p bs s
  | .jog => serveJog p bs s
  | .restart => serveRestart p bs s
  | .abortScan => serveAbortScan bs s

end Sys2Proof.Machine
end

