-- ==== Sys2Proof/Machine/Reset.lean ====
section
/-! DEFINITION. Resets and the end of the start-up phase (R16, R17, R19, R159, R183). -/

namespace Sys2Proof.Machine

/-- PST after any reset: the nonvolatile slots and stored record kept, the rest at its reset values (R17). -/
def PstState.afterReset (p : PstState) : PstState := { PstState.reset with slots := p.slots, stored := p.stored }

/-- The part after a reset with a cause (R159): every block at its reset values, nonvolatile memory kept; the waiting
commands and the count of free values are the model's own and stay. -/
def resetWith (cause : ResetCause) (s : State) : State :=
  { State.reset with
    pst := s.pst.afterReset, pfm := PfmState.reset cause, freeCount := s.freeCount, pending := s.pending }

/-- The supply rises (R159). -/
def execPowerOn (s : State) : Result := .next (resetWith .powerOn s)

/-- The RESET pin is driven low and released (R159). -/
def execResetPin (s : State) : Result := .next (resetWith .resetPin s)

/-! ### The start-up check (R16, R19) -/

/-- A slot made INVALID by the start-up check: revision 0 (R16). Its content stays as the store holds it, that of before a
write cut off by the reset, and its CRC is made to match (log entries 10 and 15). -/
def Slot.spoil (v : Slot) : Slot := { v with state := .invalid, revision := 0, crc := slotCrc .invalid 0 v.profile }

/-- A slot's start-up check (R16). -/
def Slot.startupCheck (v : Slot) : Slot :=
  if v.state = .writing ∨ v.crc ≠ slotCrc v.state v.revision v.profile then v.spoil else v

/-- The stored configuration record can be loaded (R19). -/
def StoredConfig.sound (c : StoredConfig) : Bool := c.written && !c.writeMark && c.crc == configCrc c.record

/-- The record in force and its source at the end of the start-up check (R19); the stored copy, cut off or not, is not
rewritten (log entry 15). -/
def PstState.loadConfig (p : PstState) : PstState :=
  if p.stored.sound then { p with inForce := p.stored.record, source := .stored }
  else { p with inForce := ConfigRecord.defaults, source := .defaults }

/-- The store's start-up check, slots 1 to 32 and then the configuration record (R16). -/
def PstState.startup (p : PstState) : PstState :=
  PstState.loadConfig { p with slots := p.slots.map Slot.startupCheck }

/-! ### First levels (R183) -/

/-- AXC reads the encoder and the limit switches (R113). -/
def AxcState.startup (a : AxcState) (f : FirstLevels) : AxcState :=
  { a with
    x := f.encoder, cmdPos := milli f.encoder, stallRef := f.encoder, upperOpen := f.upperOpen,
    lowerOpen := f.lowerOpen, upperInput := f.upperOpen, lowerInput := f.lowerOpen }

/-- CNV reads its two inputs (R131). -/
def CnvState.startup (c : CnvState) (f : FirstLevels) : CnvState :=
  { c with convOn := f.convOn, convFault := f.convFault, onInput := f.convOn, faultInput := f.convFault }

/-- PFM takes the permits and the decoded selector at once (R145, R148). DESIGN CHOICE, log entry 53: selector code invalid
takes the first levels' code here; Table 8-1 gives only its reset value, and R148 has it follow at each update. -/
def PfmState.startup (p : PfmState) (f : MonitorLevels) : PfmState :=
  { p with
    permits := f.permits, permitInputs := f.permits, selSetup := f.selSetup, selAuto := f.selAuto,
    decoded := decodeSelector f.selSetup f.selAuto, selector := decodeSelector f.selSetup f.selAuto,
    codeInvalid := f.selSetup && f.selAuto }

/-- ORD takes the START input's level without raising an edge (R161). -/
def OrdState.startup (d : OrdState) (f : MonitorLevels) : OrdState :=
  { d with startLevel := f.start, startInput := f.start }

/-- CONFIG_DEFAULTED is taken when the record was defaulted (R19, R159). -/
def takeDefaulted (s : State) : State :=
  match s.pst.source with
  | .stored => s
  | .defaults => pfmTake ⟨.configDefaulted, .noItem, s.seq.scanState⟩ s

/-- The end of the start-up phase (R183). -/
def endStartup (f : FirstLevels) (s : State) : State :=
  let s := s.onPst PstState.startup
  let s := (s.onAxc fun a => a.startup f).onCnv fun c => c.startup f
  let s := (s.onPfm fun p => p.startup f.monitor).onOrd fun d => d.startup f.monitor
  takeDefaulted (reformLamps (s.setStartup false))

/-- STARTUP_END: only while the start-up phase runs. -/
def execStartupEnd (f : FirstLevels) (s : State) : Result :=
  if s.startup then .next (withEncoder f.encoder (fun x => endStartup { f with encoder := x }) s) else .next s

end Sys2Proof.Machine
end

