-- ==== Sys2Proof/Machine/Link.lean ====
section
/-! DEFINITION. The link (chapter 10): receiving bytes, buffering and serving requests, sending frames; and one meaning
for each request, the arrival of that whole request at a port (log entry 12). -/

namespace Sys2Proof.Machine

/-- How many checked requests a port's receive buffer holds (Table 10-1). -/
def rxRoom : Nat := 2

/-! ### Serving (R177, R178) -/

/-- The reply frame of a request: its tag, its kind plus 0x80, the status first (R177). -/
def replyFrame (f : Frame) (r : Reply) : Frame := ⟨f.tag, f.kind + 0x80, byteOf r.status.code :: r.content⟩

/-- A reply joins the transmit queue and ends the service, or waits for room with the request still in service
(R178). -/
def PortState.queueReply (q : PortState) (f : Frame) : PortState :=
  if q.tx.length < txRoom then { q with tx := q.tx ++ [f], inService := none } else { q with waiting := some f }

/-- What a NOT_READY reply carries: nothing, but the holder for the two requests whose replies carry it on every outcome
(Table 11-10). -/
def notReadyContent (kind : Byte) (s : State) : List Byte :=
  match requestOf kind with
  | some .takeControl | some .releaseControl => [byteOf (holderCode s.lif.holder)]
  | _ => []

/-- A request taken for service and judged, its reply queued (R177). -/
def judgeRequest (p : Port) (f : Frame) (s : State) : Served :=
  if s.startup || s.lif.restartPending then ⟨s, ⟨.notReady, notReadyContent f.kind s⟩⟩
  else
    match requestOf f.kind with
    | none => refuse .unknownKind s
    | some k => serve k p f.payload s

/-- A request judged and its reply queued on the port it came on, behind the notices of its event, whatever the request
(DEDUCED for requests other than ACKNOWLEDGE, log entry 48). -/
def takeRequest (p : Port) (f : Frame) (s : State) : State :=
  let r := judgeRequest p f s
  r.state.onLif fun l => l.onPort p fun q => q.queueReply (replyFrame f r.reply)

/-- While the port has no request in service, the head of its buffer is taken (R176); `n` bounds the requests. -/
def drainPort (p : Port) : Nat → State → State
  | 0, s => s
  | n + 1, s =>
    match (s.lif.port p).inService, (s.lif.port p).buffer with
    | none, f :: rest =>
      drainPort p n
        (takeRequest p f (s.onLif fun l => l.onPort p fun q => { q with buffer := rest, inService := some f }))
    | _, _ => s

/-- A frame that may be a request: tag not 0, kind below 0x80 (R175), payload that a frame can carry. -/
def Frame.isRequest (f : Frame) : Bool :=
  f.tag != 0 && decide (f.kind.toNat < 0x80) && decide (f.payload.length ≤ payloadMax)

/-- A checked request joins the buffer's tail, or is discarded with OVERRUN set (R176). -/
def PortState.accept (q : PortState) (f : Frame) : PortState :=
  if q.buffer.length < rxRoom then { q with buffer := q.buffer ++ [f] } else { q with overrun := true }

/-- A frame received whole at a port: discarded silently, or accepted and served in its turn (R175, R176). -/
def deliverFrame (p : Port) (f : Frame) (s : State) : State :=
  if f.isRequest then drainPort p (rxRoom + 1) (s.onLif fun l => l.onPort p fun q => q.accept f) else s

/-! ### Receiving bytes (R175) -/

/-- A frame read from the bytes after the marker, when its CRC matches (R175, R187). -/
def parseFrame (bs : List Byte) : Option Frame :=
  let n := field bs 0 1
  if crc16 (bs.take (n + 1)) = BitVec.ofNat 16 (field bs (n + 1) 2) then
    some ⟨byteAt bs 1, byteAt bs 2, (bs.drop 3).take (n - 2)⟩
  else none

/-- The receiver back in HUNTING, nothing collected. -/
def PortState.hunt (q : PortState) : PortState := { q with collecting := false, partialFrame := [], idleMs := 0 }

/-- The receiver collecting, its partial frame so far. -/
def PortState.collect (q : PortState) (bs : List Byte) : PortState :=
  { q with collecting := true, partialFrame := bs, idleMs := 0 }

/-- A pause of more than 5 ms in COLLECTING is over (R175). -/
def PortState.paused (q : PortState) : Bool := q.collecting && decide (5 < q.idleMs)

/-- What a byte completes: the receiver after it, and the frame if one is complete and sound. -/
structure ByteTaken where
  port : PortState
  frame : Option Frame
  deriving DecidableEq, Repr

/-- A byte taken in COLLECTING, the partial frame with it (R175). -/
def PortState.collectByte (q : PortState) (bs : List Byte) : ByteTaken :=
  let n := field bs 0 1
  if n < 2 ∨ 242 < n then ⟨q.hunt, none⟩
  else if bs.length < n + 3 then ⟨q.collect bs, none⟩
  else ⟨q.hunt, parseFrame bs⟩

/-- A byte taken in HUNTING (R175). -/
def PortState.huntByte (q : PortState) (b : Byte) : ByteTaken :=
  if b = 0xA5 then ⟨q.collect [], none⟩ else ⟨q, none⟩

/-- A byte received (R175); the byte that ends a pause is taken in HUNTING. -/
def PortState.takeByte (q : PortState) (b : Byte) : ByteTaken :=
  if q.paused then q.hunt.huntByte b
  else if q.collecting then q.collectByte (q.partialFrame ++ [b])
  else q.huntByte b

/-- RECEIVE_BYTE (R175). -/
def execReceiveByte (p : Port) (b : Byte) (s : State) : Result :=
  let t := (s.lif.port p).takeByte b
  let s := s.onLif fun l => l.onPort p fun _ => t.port
  match t.frame with
  | none => .next s
  | some f => .next (deliverFrame p f s)

/-- RECEIVE_PAUSE: due once more than 5 ms have passed in COLLECTING (R175). -/
def execReceivePause (p : Port) (s : State) : Result :=
  if (s.lif.port p).paused then .next (s.onLif fun l => l.onPort p PortState.hunt) else .next s

/-! ### Sending (R178, R184) -/

/-- A frame is the OK reply of a RESTART. -/
def Frame.isRestartReply (f : Frame) : Bool := f.kind == 0x9C && f.payload == [0]

/-- The place of the oldest frame freed; a waiting reply takes it at that event and ends the service (R178). -/
def PortState.frameGone (q : PortState) : PortState :=
  match q.waiting with
  | none => { q with tx := q.tx.drop 1 }
  | some w => { q with tx := q.tx.drop 1 ++ [w], waiting := none, inService := none }

/-- FRAME_SENT: the oldest frame's last byte is sent; after a RESTART's OK reply the part resets (R178, R184). -/
def execFrameSent (p : Port) (s : State) : Result :=
  match (s.lif.port p).tx with
  | [] => .next s
  | f :: _ =>
    if s.lif.restartPending && f.isRestartReply then .next (resetWith .restartRequest s)
    else .next (drainPort p (rxRoom + 1) (s.onLif fun l => l.onPort p PortState.frameGone))

/-! ### One meaning for each request -/

/-- The arrival of a whole request. -/
def arrive (k : RequestKind) (p : Port) (tag : Byte) (bs : List Byte) (s : State) : Result :=
  .next (deliverFrame p ⟨tag, k.code, bs⟩ s)

def execGetStatus (p : Port) (tag : Byte) (bs : List Byte) (s : State) : Result := arrive .getStatus p tag bs s
def execGetLive (p : Port) (tag : Byte) (bs : List Byte) (s : State) : Result := arrive .getLive p tag bs s
def execGetFaults (p : Port) (tag : Byte) (bs : List Byte) (s : State) : Result := arrive .getFaults p tag bs s
def execGetOrders (p : Port) (tag : Byte) (bs : List Byte) (s : State) : Result := arrive .getOrders p tag bs s
def execGetProfileInfo (p : Port) (tag : Byte) (bs : List Byte) (s : State) : Result :=
  arrive .getProfileInfo p tag bs s
def execReadProfile (p : Port) (tag : Byte) (bs : List Byte) (s : State) : Result := arrive .readProfile p tag bs s
def execGetPatches (p : Port) (tag : Byte) (bs : List Byte) (s : State) : Result := arrive .getPatches p tag bs s
def execGetConfig (p : Port) (tag : Byte) (bs : List Byte) (s : State) : Result := arrive .getConfig p tag bs s
def execGetSummary (p : Port) (tag : Byte) (bs : List Byte) (s : State) : Result := arrive .getSummary p tag bs s
def execReadSlices (p : Port) (tag : Byte) (bs : List Byte) (s : State) : Result := arrive .readSlices p tag bs s
def execSetNotices (p : Port) (tag : Byte) (bs : List Byte) (s : State) : Result := arrive .setNotices p tag bs s
def execTakeControl (p : Port) (tag : Byte) (bs : List Byte) (s : State) : Result := arrive .takeControl p tag bs s
def execReleaseControl (p : Port) (tag : Byte) (bs : List Byte) (s : State) : Result :=
  arrive .releaseControl p tag bs s
def execEnqueueOrder (p : Port) (tag : Byte) (bs : List Byte) (s : State) : Result := arrive .enqueueOrder p tag bs s
def execCancelOrder (p : Port) (tag : Byte) (bs : List Byte) (s : State) : Result := arrive .cancelOrder p tag bs s
def execStartScan (p : Port) (tag : Byte) (bs : List Byte) (s : State) : Result := arrive .startScan p tag bs s
def execAcknowledge (p : Port) (tag : Byte) (bs : List Byte) (s : State) : Result := arrive .acknowledge p tag bs s
def execClearFaults (p : Port) (tag : Byte) (bs : List Byte) (s : State) : Result := arrive .clearFaults p tag bs s
def execTrimAdjust (p : Port) (tag : Byte) (bs : List Byte) (s : State) : Result := arrive .trimAdjust p tag bs s
def execLoadPatch (p : Port) (tag : Byte) (bs : List Byte) (s : State) : Result := arrive .loadPatch p tag bs s
def execClearPatch (p : Port) (tag : Byte) (bs : List Byte) (s : State) : Result := arrive .clearPatch p tag bs s
def execBeginProfile (p : Port) (tag : Byte) (bs : List Byte) (s : State) : Result := arrive .beginProfile p tag bs s
def execProfileVertices (p : Port) (tag : Byte) (bs : List Byte) (s : State) : Result :=
  arrive .profileVertices p tag bs s
def execCommitProfile (p : Port) (tag : Byte) (bs : List Byte) (s : State) : Result := arrive .commitProfile p tag bs s
def execEraseProfile (p : Port) (tag : Byte) (bs : List Byte) (s : State) : Result := arrive .eraseProfile p tag bs s
def execWriteConfig (p : Port) (tag : Byte) (bs : List Byte) (s : State) : Result := arrive .writeConfig p tag bs s
def execJog (p : Port) (tag : Byte) (bs : List Byte) (s : State) : Result := arrive .jog p tag bs s
def execRestart (p : Port) (tag : Byte) (bs : List Byte) (s : State) : Result := arrive .restart p tag bs s
def execAbortScan (p : Port) (tag : Byte) (bs : List Byte) (s : State) : Result := arrive .abortScan p tag bs s

end Sys2Proof.Machine
end

