-- ==== Sys2Proof/Machine/StoreCommands.lean ====
section
/-! DEFINITION. The completions of the store's writes (R12, R13, R18). -/

namespace Sys2Proof.Machine

/-- A revision after one more write: 65 535 is followed by 1 (R7). -/
def nextRevision (r : Nat) : Nat := if 65535 ≤ r then 1 else r + 1

/-- A slot written and verified, its CRC over its new content (R7, R12, R13). -/
def Slot.written (v : Slot) (state : SlotState) (p : Profile) : Slot :=
  ⟨state, nextRevision v.revision, p, slotCrc state (nextRevision v.revision) p⟩

/-- A profile read from bytes that nothing vouches for: a header and the vertices that follow it. -/
def readUntrusted (bs : List Byte) : Profile := ⟨Header.read bs, readVertices bs (min 96 ((bs.length - 51) / 19)) 51⟩

/-- A slot whose write failed its verification: INVALID, revision up, content and CRC free (R12; log entry 9). -/
def Slot.failed (v : Slot) (n : Nat) : Slot :=
  ⟨.invalid, nextRevision v.revision, readUntrusted (Config.failedImage n), Config.failedCrc n⟩

/-- The STORE notice of a slot (Table 11-11). -/
def slotNotice (n : Nat) (verified : Bool) (s : State) : State :=
  notice .store
    ([byteOf n, flagByte (!verified), byteOf (s.pst.slot n).state.code] ++ beBytes 2 (s.pst.slot n).revision) s

/-- STORE_WRITE taken by PFM for a target (R12, R13, R18). -/
def storeWriteFault (item : CircuitItem) (s : State) : State := pfmTake ⟨.storeWrite, item, s.seq.scanState⟩ s

/-- A slot write completes with the slot it leaves, STORE_WRITE where it failed, the channel idle, the STORE notice
(R8, R12, R13). -/
def completeSlot (n : Nat) (verified : Bool) (v : Slot) (s : State) : State :=
  let s := s.onPst fun q => { q.setSlot n v with channel := none }
  let s := if verified then s else storeWriteFault (.slot n) s.bumpFree
  slotNotice n verified s

/-- COMMIT_COMPLETE: only while a commit is being written (R12). -/
def execCommitComplete (verified : Bool) (s : State) : Result :=
  match s.pst.channel with
  | some (.commit n copy) =>
    .next (completeSlot n verified
      (if verified then (s.pst.slot n).written .valid copy else (s.pst.slot n).failed s.freeCount) s)
  | some (.erase _) | some (.config _) | none => .next s

/-- ERASE_COMPLETE: only while an erase is being written (R13). -/
def execEraseComplete (verified : Bool) (s : State) : Result :=
  match s.pst.channel with
  | some (.erase n) =>
    .next (completeSlot n verified
      (if verified then (s.pst.slot n).written .empty Profile.none else (s.pst.slot n).failed s.freeCount) s)
  | some (.commit _ _) | some (.config _) | none => .next s

/-- The store after a verified configuration write (R18). -/
def PstState.configWritten (q : PstState) (c : ConfigRecord) : PstState :=
  { q with channel := none, stored := ⟨true, false, c, configCrc c⟩, inForce := c, source := .stored }

/-- The store after a failed configuration write: the stored copy no longer matches its CRC (R18; log entry 11). -/
def PstState.configFailed (q : PstState) (n : Nat) : PstState :=
  let c := ConfigRecord.read (Config.failedImage n)
  { q with channel := none, stored := ⟨true, false, c, ~~~(configCrc c)⟩ }

/-- The STORE notice of the configuration record (Table 11-11 note 3). -/
def configNotice (verified : Bool) (s : State) : State := notice .store [0x21, flagByte (!verified), 0, 0, 0] s

/-- CONFIG_WRITE_COMPLETE: only while the record is being written (R18). -/
def execConfigWriteComplete (verified : Bool) (s : State) : Result :=
  match s.pst.channel with
  | some (.config c) =>
    .next (configNotice verified
      (if verified then s.onPst fun q => q.configWritten c
        else storeWriteFault .configRecord (s.onPst fun q => q.configFailed s.freeCount).bumpFree))
  | some (.commit _ _) | some (.erase _) | none => .next s

end Sys2Proof.Machine
end

