-- ==== Sys2Proof/Machine/SetpointCommands.lean ====
section
/-! DEFINITION. The setpoint update and the expiry of the trim hold (chapter 2). -/

namespace Sys2Proof.Machine

/-- The vertex whose values the active span applies; the dwell vertex in DWELL is that of the same span (R22). -/
def activeVertex (s : State) : VertexPlan := (s.profile.vertex ((s.spg.span.map ActiveSpan.index).getD 0)).plan

/-- The span change of an update in SCAN (R22): one span upward where h has reached the next vertex and that vertex is
not the last. -/
def advanceSpan (s : State) : State :=
  match s.spg.span with
  | none => s
  | some sp =>
    if (s.profile.vertex (sp.index + 1)).position ≤ s.high ∧ sp.index + 1 < s.profile.lastIndex then
      activateSpan (sp.index + 1) s
    else s

/-- Planned power and the planned speed to deliver in this update (R24, R26). -/
def planNow (s : State) : Plan :=
  match s.spg.span with
  | none => ⟨0, 0⟩
  | some sp =>
    if s.seq.scanState = .dwell then ⟨sp.power, 0⟩ else planIn s.profile sp (max s.high sp.x)

/-- SPG delivers the planned speed to AXC (R26). -/
def deliverSpeed (v : Nat) (s : State) : State := s.onSpg fun g => { g with plannedSpeed := some v }

/-- What the pipeline computes of one update from the scheduled power and the correction (R33 to R35). -/
structure Pipeline where
  blended : Nat
  clipped : Nat
  command : Nat
  deriving DecidableEq, Repr

def pipeline (h : Header) (c : ConfigRecord) (derate alpha sched : Nat) (corr : Int) (prev : Nat) : Pipeline :=
  let ceiling := effectiveCeiling h c derate
  let b := blend alpha (feedbackPower sched corr ceiling) sched
  let clip := clampNat (effectiveFloor h ceiling) ceiling b
  ⟨b, clip, slewed c.slew prev clip ceiling⟩

/-- NO_TRIM reported (R32). -/
def reportNoTrim (s : State) : State :=
  if s.spg.trim = .lost ∧ 0 < (activeVertex s).alpha then s.onSlt fun t => t.flagHeating .noTrim else s

/-- CLAMPED reported (R34). -/
def reportClamped (changed : Bool) (s : State) : State :=
  if changed then s.onSlt fun t => t.flagHeating .clamped else s

/-- The power part of an update in a production scan (R30 to R37); with a heat permit absent the command is 0 and the
trim goes on (R21; log entry 19). -/
def powerUpdate (sched : Nat) (s : State) : State :=
  let t := s.spg.trimUpdate s.config (activeVertex s).tSet s.cnv.tMeas s.cnv.tValid
  let s := s.onSpg fun _ => t.spg
  if s.pfm.heatPermits then
    let r := pipeline s.profile.header s.config s.cnv.derate (activeVertex s).alpha sched t.corr s.spg.pPrev
    reportNoTrim (reportClamped (r.clipped != r.blended) (deliverPower r.command s))
  else reportNoTrim (forceZero s)

/-- One update in DWELL or SCAN below x_last (R20). -/
def runUpdate (s : State) : State :=
  let s := if s.seq.scanState = .scan then advanceSpan s else s
  let plan := planNow s
  let s' := deliverSpeed plan.speed s
  match s.seq.kind with
  | .dry => forceZero s'
  | .production => powerUpdate (scheduled plan.power s.spg.scale) s'

/-- SETPOINT_UPDATE: in DWELL and SCAN only; in SCAN with h at or above x_last it delivers a command of 0 and selects
no span (R20; log entry 18). -/
def execSetpointUpdate (s : State) : Result :=
  match s.seq.scanState with
  | .dwell => .next (runUpdate s)
  | .scan => if s.profile.last ≤ s.high then .next (forceZero s) else .next (runUpdate s)
  | .idle | .approach | .ignite | .runout | .soak | .complete | .quenchOut | .flood | .halted => .next s

/-- TRIM_HOLD_EXPIRY: due in HOLDING with the reading invalid and the hold time reaching 200 ms (R31; log entry 17). -/
def execTrimHoldExpiry (s : State) : Result :=
  if s.seq.scanState.isHeat ∧ s.spg.trim = .holding ∧ s.cnv.tValid = false ∧ 199 ≤ s.spg.holdTime then
    .next (s.onSpg fun g => { g with trim := .lost, holdTime := 200, lastCorr := 0 })
  else .next s

end Sys2Proof.Machine
end

