-- ==== Sys2Proof/Machine/AxisCommands.lean ====
section
/-! DEFINITION. The axis update and the axis events (chapter 6). -/

namespace Sys2Proof.Machine

/-! ### Steps 1 to 4 -/

/-- The rotation timing, the limit switch inputs, and steps 1 to 3 (R114, R122, R126, R128; log entry 26). -/
def readAxis (encoder : Nat) (upper lower : Bool) (s : State) : State :=
  s.onAxc fun a =>
    { (a.rotationTick s.config.pulsesPerRev).readEncoder s.seq.scanState encoder with
      upperInput := upper, lowerInput := lower, upperStable := stableUp 5 upper a.upperOpen a.upperStable,
      lowerStable := stableUp 5 lower a.lowerOpen a.lowerStable }

/-- The last vertex is reached in SCAN (R122, R50). -/
def State.lastReached (s : State) : Bool :=
  s.seq.scanState == .scan &&
    match s.axc.highMark with
    | none => false
    | some h => decide (s.profile.last ≤ h)

/-- SEQ moves to RUNOUT when the last vertex is reached (R50). -/
def reportLastVertex (s : State) : State := if s.lastReached then enterRunout s else s

/-- Which travel causes begin to hold at this update (R123 to R125). -/
structure TravelOnset where
  following : Bool
  reversal : Bool
  deriving DecidableEq, Repr

/-- The onsets of FOLLOWING and REVERSAL. -/
def travelOnset (s : State) : TravelOnset :=
  ⟨s.axc.followingHolds s.config.followingLimit && !s.axc.followOn,
    s.axc.reversalHolds s.seq.scanState s.config.reversalLimit && !s.axc.reversalOn⟩

/-- The conditions as now found, and the stall timer (R123, R124). -/
def noteTravel (s : State) : State :=
  s.onAxc fun a =>
    { a.stallCheck s.config.stallTime with
      followOn := a.followingHolds s.config.followingLimit
      reversalOn := a.reversalHolds s.seq.scanState s.config.reversalLimit }

/-- The travel causes of an update at which FOLLOWING or REVERSAL begins to hold: those two, and STALL where its timer
reaches the stall time at the same update (R123 to R125). -/
def onsetCauses (o : TravelOnset) (stalls : Bool) : List Raised :=
  (if o.following then [⟨.following, .noItem⟩] else []) ++ (if o.reversal then [⟨.reversal, .noItem⟩] else [])
    ++ (if stalls then [⟨.stall, .noItem⟩] else [])

/-- The travel causes of one update raised, no step emitted, the stall check at rest (R123 to R125; log entry 24). -/
def raiseOnset (o : TravelOnset) (s : State) : State :=
  raiseTravels (onsetCauses o (s.axc.stallDue s.config.stallTime)) (s.onAxc fun a => { a.rearmStall with steps := 0 })

/-! ### Steps 5 and 6 -/

/-- One update of TRACKING (R119, R120). `dwellAt` is the position of the next dwell vertex in SCAN. -/
def AxcState.trackUpdate (a : AxcState) (accel speed : Nat) (dwellAt : Option Nat) : AxcState :=
  match dwellAt with
  | none => { a with vCmd := stepToward accel a.vCmd speed }
  | some pos =>
    if mustBrake accel (a.below pos) a.vCmd then
      { a with
        travel := .brakingTo, moveKind := some .dwell, target := some pos, waiting := .notWaiting,
        waitTime := 0 }.brakeOnto accel pos
    else { a with vCmd := stepToward accel a.vCmd speed }

/-- The target speed of TRACKING (R119). -/
def State.trackSpeed (s : State) : Nat :=
  if s.seq.scanState = .scan then s.spg.plannedSpeed.getD 0 else s.axc.holdSpeed.getD 0

/-- The position of the next dwell vertex while in SCAN (R119, R120). -/
def State.dwellAhead (s : State) : Option Nat :=
  if s.seq.scanState = .scan then s.axc.nextDwell.map fun j => (s.profile.vertex j).position else none

/-- The speed rule of the present travel state outside a wait (R114 step 5), with the switch that forbids a turn. -/
def speedRule (s : State) : MotionStart :=
  let a := s.axc
  match a.travel with
  | .stopped | .holding => ⟨{ a with vCmd := 0 }, none⟩
  | .tracking => ⟨a.trackUpdate s.config.accel s.trackSpeed s.dwellAhead, none⟩
  | .movingTo =>
    match a.moveKind with
    | some .jog => a.moveUpdate s.config.accel s.config.jogSpeed (a.target.getD 0) .jog
    | some .approach | some .dwell | some .stop | none =>
      a.moveUpdate s.config.accel s.config.approachSpeed (a.target.getD 0) .approach
  | .brakingTo =>
    match a.target with
    | some t => ⟨a.brakeOnto s.config.accel t, none⟩
    | none => ⟨a.stopUpdate s.config.accel, none⟩

/-- Steps 5 and 6 outside a wait: the speed command and the advance; a turn toward an OPEN switch raises TRAVEL_LIMIT
(R117, R126). -/
def moveAxis (s : State) : State :=
  let m := speedRule s
  raiseBlocked m.blocked (s.onAxc fun _ => m.axc.advance)

/-- The end-of-move wait has ended (R115): in position for a move with a target, at rest for a stop. -/
def AxcState.waitEnds (a : AxcState) : Bool :=
  match a.target with
  | some t => a.inPosition t
  | none => a.atRest

/-- What follows the end of a wait, by the move (R117, R120, R121). -/
def endMove (s : State) : State :=
  match s.axc.moveKind with
  | some .approach => s.onAxc fun a => { a.hold with posReport := true }
  | some .dwell =>
    let j := s.axc.nextDwell.getD 0
    let s := s.onAxc fun a => { a.hold with nextDwell := nextDwellAbove s.profile.vertices j }
    if s.seq.scanState = .scan then enterDwell j s else s
  | some .jog | some .stop | none => s.onAxc AxcState.stop

/-- One update of an end-of-move wait (R115); the wait time stops at the stall time, which marks STALL due. -/
def waitUpdate (s : State) : State :=
  let s := s.onAxc fun a => { a with steps := 0 }
  if s.axc.waitEnds then endMove s
  else
    s.onAxc fun a =>
      { a with waitTime := if a.waiting = .timed then min s.config.stallTime (a.waitTime + 1) else a.waitTime }

/-- Steps 5 and 6 (R114). -/
def motionStep (s : State) : State :=
  if s.axc.waiting = .notWaiting then moveAxis s else waitUpdate s

/-- While HOLDING in APPROACH, whether the carriage is in position at x_0 is reported at each change (R117). -/
def holdReport (s : State) : State :=
  if s.axc.travel = .holding ∧ s.seq.scanState = .approach then
    s.onAxc fun a => { a with posReport := a.inPosition s.profile.first }
  else s

/-- The in-band report in APPROACH and the rotation check (R129). -/
def rotationStep (s : State) : State :=
  s.onAxc fun a =>
    { a.rotationCheck s.config.rotationBand with
      bandReport := if s.seq.scanState = .approach then a.inBand s.config.rotationBand else a.bandReport }

/-- Steps 4 to 6: the travel checks, then the motion, which an update that raises a travel cause or makes STALL due
leaves out (log entry 24). -/
def travelStep (s : State) : State :=
  let o := travelOnset s
  let s := noteTravel s
  if o.following || o.reversal then raiseOnset o s
  else if s.axc.stallDue s.config.stallTime then s.onAxc fun a => { a with steps := 0 }
  else motionStep s

/-- One axis update (R114). The last-vertex report that follows from step 2 comes before step 4, so that the travel checks
of that update find RUNOUT and not SCAN (DESIGN CHOICE, log entry 47). -/
def axisUpdate (encoder : Nat) (upper lower : Bool) (s : State) : State :=
  examineApproach (rotationStep (holdReport (travelStep (reportLastVertex (readAxis encoder upper lower s)))))

/-- AXIS_UPDATE: from the end of the start-up phase (R114). -/
def execAxisUpdate (encoder : Nat) (upper lower : Bool) (s : State) : Result :=
  if s.startup then .next s else .next (withEncoder encoder (fun x => axisUpdate x upper lower) s)

/-! ### Axis events -/

/-- STALL in TRACKING, when due (R124). -/
def execStall (s : State) : Result :=
  if s.axc.stallDue s.config.stallTime then .next (raiseTravel .stall .noItem (s.onAxc AxcState.rearmStall)) else .next s

/-- The target dropped, waiting for rest with no further timing; the wait time returns to 0 when that wait ends (R115). -/
def AxcState.dropTarget (a : AxcState) (waited : Nat) : AxcState :=
  { a with
    travel := .brakingTo, moveKind := some .stop, target := none, vCmd := 0, waiting := .untimed, waitTime := waited }

/-- END_OF_MOVE_STALL, when due: STALL raised, with the quick stops of that event, and then the target dropped (R115, R124;
log entry 20). -/
def execEndOfMoveStall (s : State) : Result :=
  if s.axc.waitDue s.config.stallTime then
    .next ((raiseTravel .stall .noItem s).onAxc fun a => a.dropTarget s.axc.waitTime)
  else .next s

/-- Whether a limit switch's level has held for 5 ms against its filtered state (R126). -/
def AxcState.switchDue (a : AxcState) : LimitSwitch → Bool
  | .upper => decide (5 ≤ a.upperStable) && a.upperInput != a.upperOpen
  | .lower => decide (5 ≤ a.lowerStable) && a.lowerInput != a.lowerOpen

/-- The filtered state takes the level (R126). -/
def AxcState.takeSwitch (a : AxcState) : LimitSwitch → AxcState
  | .upper => { a with upperOpen := a.upperInput, upperStable := 0 }
  | .lower => { a with lowerOpen := a.lowerInput, lowerStable := 0 }

/-- LIMIT_SWITCH_CHANGE, when due: a switch that becomes OPEN while not STOPPED raises TRAVEL_LIMIT (R126). -/
def execLimitSwitchChange (w : LimitSwitch) (s : State) : Result :=
  if s.axc.switchDue w then
    let s := s.onAxc fun a => a.takeSwitch w
    if s.axc.isOpen w ∧ s.axc.travel ≠ .stopped then .next (raiseTravel .travelLimit (.limitSwitch w) s)
    else .next s
  else .next s

/-- ROTATION_PULSE: the measured speed, and the pulse delivered to SLT (R128, R87). -/
def execRotationPulse (micros : Nat) (s : State) : Result :=
  if s.startup then .next s
  else
    .next ((s.onAxc fun a => a.pulse s.config.pulsesPerRev micros).onSlt fun t => t.countPulse s.config.pulsesPerRev)

/-- ROTATION raised, the check OFF (R129). -/
def raiseRotation (s : State) : State := raiseCause .rotation .noItem (s.onAxc AxcState.rotationOff)

/-- ROTATION_SETTLING_EXPIRY, when due (R129). -/
def execRotationSettlingExpiry (s : State) : Result :=
  if s.axc.rotation = .settling ∧ 5000 ≤ s.axc.rotationTimer then .next (raiseRotation s) else .next s

/-- ROTATION_OUT_OF_BAND, when due (R129). -/
def execRotationOutOfBand (s : State) : Result :=
  if s.axc.rotation = .outOfBand ∧ 201 ≤ s.axc.rotationTimer then .next (raiseRotation s) else .next s

end Sys2Proof.Machine
end

