-- ==== Sys2Proof/Machine/ConverterCommands.lean ====
section
/-! DEFINITION. The channel update, the converter's inputs and timers, and the samples (chapter 7). -/

namespace Sys2Proof.Machine

/-- One channel update: the inputs, the power sample, the check and timers of the channel state (R131, R134, R136 to
R139); a channel that reaches OFF may end an approach (R45). -/
def channelUpdate (code : AdcCode) (on fault : Bool) (s : State) : State :=
  let s := s.onCnv fun c => ((c.sampleInputs on fault).takeSample s.config code).channelTick s.config
  if s.cnv.state = .off then examineApproach s else s

/-- CHANNEL_UPDATE: from the end of the start-up phase (R131). -/
def execChannelUpdate (code : AdcCode) (on fault : Bool) (s : State) : Result :=
  if s.startup then .next s else .next (channelUpdate code on fault s)

/-- Whether an input's level has held for 5 ms against its filtered level (R131). -/
def CnvState.inputDue (c : CnvState) : ConvInput → Bool
  | .convOn => decide (5 ≤ c.onStable) && c.onInput != c.convOn
  | .convFault => decide (5 ≤ c.faultStable) && c.faultInput != c.convFault

/-- The filtered level takes the input's level (R131). -/
def CnvState.takeInput (c : CnvState) : ConvInput → CnvState
  | .convOn => { c with convOn := c.onInput, onStable := 0 }
  | .convFault => { c with convFault := c.faultInput, faultStable := 0 }

/-- Whether a change of filtered level is a trip in RUNNING: CONV_ON fell or CONV_FAULT rose (R135). -/
def CnvState.trips (c : CnvState) : ConvInput → Bool
  | .convOn => !c.convOn
  | .convFault => c.convFault

/-- A changed filtered level taken by the rule of the channel state (R131, R134, R135, R137). -/
def convInputChange (i : ConvInput) (s : State) : State :=
  let s := s.onCnv fun c => c.takeInput i
  match s.cnv.state with
  | .starting => converterOn s
  | .running => if s.cnv.trips i then raiseConverter .converterTrip s else s
  | .off | .stopping => s

/-- CONV_INPUT_CHANGE, when due (R131). -/
def execConvInputChange (i : ConvInput) (s : State) : Result :=
  if s.cnv.inputDue i then .next (convInputChange i s) else .next s

/-- START_TIMER_EXPIRY, when due (R134). -/
def execStartTimerExpiry (s : State) : Result :=
  if s.cnv.state = .starting ∧ s.cnv.startTimer = some 0 then .next (raiseConverter .converterNoStart s) else .next s

/-- CONVERTER_STUCK_ON, when due: once for each stay in STOPPING, to PFM alone (R137). -/
def execConverterStuckOn (s : State) : Result :=
  if s.cnv.state = .stopping ∧ s.cnv.stopTimer = some 0 ∧ s.cnv.convOn = true ∧ s.cnv.stuck = false then
    .next (pfmTake ⟨.converterStuckOn, .noItem, s.seq.scanState⟩ (s.onCnv fun c => { c with stuck := true }))
  else .next s

/-- POWER_FEEDBACK, when due (R136). -/
def execPowerFeedback (s : State) : Result :=
  if s.cnv.state = .running ∧ deviationTime ≤ s.cnv.deviationTimer then .next (raiseConverter .powerFeedback s)
  else .next s

/-- PYROMETER_SAMPLE (R140). -/
def execPyrometerSample (code : AdcCode) (s : State) : Result :=
  if s.startup then .next s
  else
    .next (s.onCnv fun c =>
      { c with tMeas := pyrometerReading code, tValid := readingValid (pyrometerReading code) })

/-- The coolant temperature and the derate limit of a sample (R141). -/
def CnvState.takeCoolant (c : CnvState) (cfg : ConfigRecord) (t : Nat) : CnvState :=
  { c with coolant := some t, derate := derateLimit cfg t, hot := decide (cfg.coolantTrip ≤ t) }

/-- COOLANT_HOT raised; a RUNNING channel enters STOPPING at the same event (R142). -/
def raiseCoolantHot (s : State) : State :=
  raiseCause .coolantHot .noItem (s.onCnv fun c => if c.state = .running then c.stop else c)

/-- COOLANT_SAMPLE: the derate limit delivered to SPG, and COOLANT_HOT in the heat states (R36, R141, R142). -/
def execCoolantSample (code : AdcCode) (s : State) : Result :=
  if s.startup then .next s
  else
    let s := derateCut (s.onCnv fun c => c.takeCoolant s.config (coolantReading code))
    if s.cnv.hot ∧ s.seq.scanState.isHeat then .next (raiseCoolantHot s) else .next s

end Sys2Proof.Machine
end

