-- ==== Sys2Proof/Machine/SliceCommands.lean ====
section
/-! DEFINITION. The tracking step (R72 to R79, R88). -/

namespace Sys2Proof.Machine

/-- A leave-quench event of slice k: DONE and evaluated, its notice, its report (R77). -/
def leaveQuenchEvent (k clock : Nat) (s : State) : State :=
  let s := sliceNotice k (s.onSlt fun t => t.leaveQuench s.seq.kind s.profile.header.tolerance k clock)
  if s.slt.transit.isEmpty then drained s else s

/-- Part 3: leave-quench and enter-quench events until neither applies (R76 to R78); `n` bounds the events. -/
def quenchEvents (hNow clock : Nat) : Nat → State → State
  | 0, s => s
  | n + 1, s =>
    match s.slt.atQuench with
    | some k =>
      match s.slt.slice? k with
      | none => s
      | some r =>
        if (r.endPos : Int) ≤ quenchPoint s.profile hNow then quenchEvents hNow clock n (leaveQuenchEvent k clock s)
        else s
    | none =>
      match s.slt.transit with
      | [] => s
      | k :: _ =>
        match s.slt.slice? k with
        | none => s
        | some r =>
          if (r.start : Int) ≤ quenchPoint s.profile hNow then
            quenchEvents hNow clock n (enterQuenchEvent k hNow clock s)
          else s

/-- The states in which tracking steps run (R72). -/
def ScanState.tracks : ScanState → Bool
  | .dwell | .scan | .runout | .quenchOut => true
  | .idle | .approach | .ignite | .soak | .complete | .flood | .halted => false

/-- The four parts of a tracking step, the mark, and the ring demands (R72, R101). -/
def trackingStep (hNow : Nat) (s : State) : State :=
  let clock := s.seq.clock
  let events := s.slt.table.length
  let s := leaveHeats hNow clock events (s.onSlt fun t => t.attribute s.cnv.pMeas hNow)
  let s := quenchEvents hNow clock (2 * events + 1) s
  reformQuench (s.onSlt fun t => { t.transferCheck s.profile.header.maxTransfer clock with mark := some hNow })

/-- TRACKING_STEP: from entry to heat, in DWELL, SCAN, RUNOUT and QUENCH_OUT (R72). -/
def execTrackingStep (s : State) : Result :=
  if s.seq.scanState.tracks then
    match s.axc.highMark with
    | some h => .next (trackingStep h s)
    | none => .next s
  else .next s

end Sys2Proof.Machine
end

