-- ==== Sys2Proof/Machine/QuenchCommands.lean ====
section
/-! DEFINITION. The quench update, valve supervision and flow (chapter 5). -/

namespace Sys2Proof.Machine

/-- The readbacks and rise times of one quench update (R96, R97, R106). -/
def sampleCircuits (a b f : Bool) (riseTime : Nat) (q : QchState) : QchState :=
  { q with
    ringA := (q.ringA.sampleReadback a).riseTick riseTime
    ringB := (q.ringB.sampleReadback b).riseTick riseTime
    flood := (q.flood.sampleReadback f).riseTick riseTime }

/-- The pattern counter at a quench update (R102). -/
def advancePatternNow (s : State) : State :=
  if s.seq.scanState.runsPattern then
    match s.axc.highMark with
    | none => s
    | some h => s.onQch fun q => q.advancePattern (quenchPoint s.profile h) s.slt.atQuench.isSome
  else s

/-- One quench update (R95, R96, R102, R101). -/
def quenchUpdate (a b f : Bool) (s : State) : State :=
  reformQuench (advancePatternNow (s.onQch (sampleCircuits a b f s.config.flowRiseTime)))

/-- QUENCH_UPDATE: from the end of the start-up phase (R95). -/
def execQuenchUpdate (a b f : Bool) (s : State) : Result :=
  if s.startup then .next s else .next (quenchUpdate a b f s)

/-- VALVE_MISMATCH, when due (R96). -/
def execValveMismatch (c : Circuit) (s : State) : Result :=
  if (s.qch.circuit c).mismatchDue then
    .next (raiseCause .valveMismatch (.circuit c) (s.onQch fun q => q.onCircuit c CircuitRec.enterMismatch))
  else .next s

/-- MISMATCH_CLEARED, when due: the circuit takes its demand again through the gate (R97). -/
def execMismatchCleared (c : Circuit) (s : State) : Result :=
  if (s.qch.circuit c).clearDue then
    .next (reformQuench (s.onQch fun q => q.onCircuit c CircuitRec.leaveMismatch))
  else .next s

/-- FLOW_PULSE: counted from the end of the start-up phase (R105). -/
def execFlowPulse (c : Circuit) (s : State) : Result :=
  if s.startup then .next s
  else .next (s.onQch fun q => q.onCircuit c fun r => { r with pulses := r.pulses + 1 })

/-- A ring's flow update: the flow, the check, and FLOW_LOW reported to SLT where a watched flow is low (R105 to
R107). -/
def ringFlow (c : Circuit) (s : State) : State :=
  let s := s.onQch fun q => q.onCircuit c fun r => r.formFlow s.config.flowPulsesPerLitre
  let low := (s.qch.circuit c).watchedLow (minFlow s.config c)
  let s := s.onQch fun q => q.onCircuit c fun r => r.flowCheck (minFlow s.config c)
  if low then s.onSlt fun t => t.flagQuenching .flowLow else s

/-- FLOW_LOW on FLOOD raised, once for each opening (R108). -/
def raiseFlowLow (s : State) : State :=
  raiseCause .flowLow (.circuit .flood)
    (s.onQch fun q => q.onCircuit .flood fun r => { r with lowRaised := true })

/-- The FLOOD circuit's flow update (R105, R106, R108). -/
def floodFlow (s : State) : State :=
  let s := s.onQch fun q => q.onCircuit .flood fun r => r.formFlow s.config.flowPulsesPerLitre
  let confirms := s.qch.flood.check == .rising && decide (s.config.minFlowFlood ≤ s.qch.flood.flow)
  let low := s.qch.flood.watchedLow s.config.minFlowFlood && !s.qch.flood.lowRaised
  let s := s.onQch fun q => q.onCircuit .flood fun r => r.flowCheck s.config.minFlowFlood
  let s := if confirms then s.onSlt SltState.confirmFlood else s
  if low then raiseFlowLow s else s

/-- FLOW_UPDATE: from the end of the start-up phase (R105). -/
def execFlowUpdate (s : State) : Result :=
  if s.startup then .next s else .next (floodFlow (ringFlow .ringB (ringFlow .ringA s)))

/-- What the expiry of a rise time reports: FLOW_LOW to SLT for a ring, the cause for FLOOD (R107, R108). -/
def reportUnestablished (c : Circuit) (s : State) : State :=
  match c with
  | .ringA | .ringB => s.onSlt fun t => t.flagQuenching .flowLow
  | .flood => raiseFlowLow s

/-- RISE_TIME_EXPIRY, when due (R106). -/
def execRiseTimeExpiry (c : Circuit) (s : State) : Result :=
  if (s.qch.circuit c).riseDue s.config.flowRiseTime then
    .next (reportUnestablished c (s.onQch fun q => q.onCircuit c CircuitRec.riseExpire))
  else .next s

end Sys2Proof.Machine
end

