-- ==== Sys2Proof/Machine/MonitorCommands.lean ====
section
/-! DEFINITION. The monitor update, permit and selector changes, the START input (chapters 8 and 9). -/

namespace Sys2Proof.Machine

/-- The selector's stable time at a monitor update: a decoded position that changes to a third value restarts the count
(R148; log entry 27). -/
def selectorTime (now before filtered : Selector) (t : Nat) : Nat :=
  if now = filtered then 0 else if now = before then min 20 (t + 1) else 1

/-- PFM at a monitor update (R144, R145, R148, R157). -/
def PfmState.monitor (p : PfmState) (f : MonitorLevels) : PfmState :=
  let now := decodeSelector f.selSetup f.selAuto
  { p with
    permitInputs := f.permits
    permitStable :=
      permitZip (fun t d => if d then min 5 (t + 1) else 0) p.permitStable (permitZip (· != ·) f.permits p.permits)
    selSetup := f.selSetup
    selAuto := f.selAuto
    decoded := now
    selectorStable := selectorTime now p.decoded p.selector p.selectorStable
    codeInvalid := f.selSetup && f.selAuto
    lampPhase := (p.lampPhase + 1) % p.lampFault.period }

/-- The START input filtered as a permit is (R165). -/
def OrdState.sampleStart (d : OrdState) (level : Bool) : OrdState :=
  { d with startInput := level, startStable := stableUp 5 level d.startLevel d.startStable }

/-- MONITOR_UPDATE: from the end of the start-up phase (R144). -/
def execMonitorUpdate (f : MonitorLevels) (s : State) : Result :=
  if s.startup then .next s
  else .next ((s.onPfm fun p => p.monitor f).onOrd fun d => d.sampleStart f.start)

/-! ### Permits (R145 to R147) -/

/-- Whether a permit input has differed from its filtered state for 5 ms (R145). -/
def PfmState.permitDue (p : PfmState) (x : Permit) : Bool :=
  decide (5 ≤ permitGet p.permitStable x) && permitGet p.permitInputs x != permitGet p.permits x

/-- The filtered state takes the level (R145). -/
def PfmState.takePermit (p : PfmState) (x : Permit) : PfmState :=
  { p with
    permits := permitSet p.permits (permitGet p.permitInputs x) x
    permitStable := permitSet p.permitStable 0 x }

/-- SPG hears of the heat-permit group: its loss forces the command to 0 (R21, R146). -/
def reportHeat (before : PfmState) (s : State) : State :=
  if before.heatPermits && !s.pfm.heatPermits then forceZero s else s

/-- AXC hears of the motion-permit group: its loss ends a jog (R118, R146). -/
def reportMotion (before : PfmState) (s : State) : State :=
  if before.motionPermits && !s.pfm.motionPermits then s.onAxc AxcState.endJog else s

/-- The reports of a filtered permit change to QCH, SPG and AXC (R146). -/
def reportPermit (before : PfmState) (s : State) : State := reportMotion before (reportHeat before (reformQuench s))

/-- Whether AXC raises DRIVE_NOT_READY at a permit change: DRIVE_READY lost while not STOPPED (R126, R146). -/
def driveLost (before : PfmState) (s : State) : Bool :=
  before.permits.driveReady && !s.pfm.permits.driveReady && s.axc.travel != .stopped

/-- Whether CNV raises CONVERTER_TRIP at a permit change: CONV_READY lost in RUNNING (R135, R146). -/
def readyLost (before : PfmState) (s : State) : Bool :=
  before.permits.convReady && !s.pfm.permits.convReady && s.cnv.state == .running

/-- The causes raised at a change of permit x: AXC's, CNV's, and PFM's own while a scan runs (R126, R135, R147). -/
def permitCauses (x : Permit) (before : PfmState) (s : State) : List Raised :=
  (if driveLost before s then [⟨.driveNotReady, .noItem⟩] else [])
    ++ (if readyLost before s then [⟨.converterTrip, .noItem⟩] else [])
    ++ (if permitGet before.permits x && s.scanRunning then [⟨permitCause x, .noItem⟩] else [])

/-- AXC and CNV stop at the causes they raise (R123, R135). -/
def stopAtLoss (before : PfmState) (s : State) : State :=
  (s.onAxc fun a => if driveLost before s then a.quickStop else a).onCnv fun c =>
    if readyLost before s then c.stop else c

/-- A filtered permit change: the reports, and the causes of a loss. Each block judges its own cause by the state it found
before any of them was taken; SEQ and PFM take the causes in any order (R135, R146, R147, R150; log entry 6). -/
def permitChange (x : Permit) (s : State) : State :=
  let before := s.pfm
  let s := reformLamps (s.onPfm fun p => p.takePermit x)
  raiseAll (permitCauses x before s) (stopAtLoss before (reportPermit before s))

/-- PERMIT_CHANGE, when due (R145). -/
def execPermitChange (x : Permit) (s : State) : Result :=
  if s.pfm.permitDue x then .next (permitChange x s) else .next s

/-! ### Selector (R148, R149) -/

/-- SEQ hears of a new selector position (R66). -/
def reportSelectorSeq (s : State) : State :=
  if s.scanRunning ∧ s.seq.startSelector ≠ some s.pfm.selector then judge .selector s else s

/-- LIF hears of a new selector position: LOCKED releases authority (R182). -/
def reportSelectorLif (s : State) : State := if s.pfm.selector = .locked then setHolder none s else s

/-- AXC hears of a new selector position: away from SETUP ends a jog (R118). -/
def reportSelectorAxc (s : State) : State := if s.pfm.selector = .setup then s else s.onAxc AxcState.endJog

/-- The SELECTOR notice (R149, Table 11-11). It carries the scan state found where it is built; at a change which SEQ takes
as a cause that is the state after SEQ's action: DESIGN CHOICE, log entry 54. -/
def selectorNotice (prev : Selector) (released : Bool) (s : State) : State :=
  notice .selector
    [byteOf s.pfm.selector.code, byteOf prev.code, byteOf s.seq.scanState.code, flagByte released] s

/-- A change of the filtered selector (R149). The order of the reports, the notice built last, follows log entry 29; that the
notice then carries the scan state after SEQ's action on SELECTOR is the model's choice too: DESIGN CHOICE, log entry 54. -/
def selectorChange (s : State) : State :=
  let prev := s.pfm.selector
  let released := s.lif.holder.isSome && s.pfm.decoded == .locked
  let s := reformLamps (s.onPfm fun p => { p with selector := p.decoded, selectorStable := 0 })
  selectorNotice prev released (reportSelectorAxc (reportSelectorLif (reportSelectorSeq s)))

/-- SELECTOR_CHANGE, when due (R148). -/
def execSelectorChange (s : State) : Result :=
  if 20 ≤ s.pfm.selectorStable ∧ s.pfm.decoded ≠ s.pfm.selector then .next (selectorChange s) else .next s

/-! ### The START input (R165) -/

/-- START_EDGE, when due, from the end of the start-up phase (R161, R165). -/
def execStartEdge (s : State) : Result :=
  if s.startup = false ∧ 5 ≤ s.ord.startStable ∧ s.ord.startInput = true ∧ s.ord.startLevel = false then
    .next (startEdge (s.onOrd fun d => { d with startLevel := true, startStable := 0 }))
  else .next s

/-- START_INPUT_FALL, when due (R165). -/
def execStartInputFall (s : State) : Result :=
  if 5 ≤ s.ord.startStable ∧ s.ord.startInput = false ∧ s.ord.startLevel = true then
    .next (s.onOrd fun d => { d with startLevel := false, startStable := 0 })
  else .next s

end Sys2Proof.Machine
end

