-- ==== Sys2Proof/Machine/SequenceCommands.lean ====
section
/-! DEFINITION. The expiries of the sequencer's state timer (R48, R52, R60, R61), and the millisecond that passes while
no command waits (log entry 1). -/

namespace Sys2Proof.Machine

/-- DWELL_EXPIRY, when due (R48). -/
def execDwellExpiry (s : State) : Result :=
  if s.seq.scanState = .dwell ∧ s.seq.timer = some 0 then .next (leaveDwell s) else .next s

/-- SOAK_EXPIRY, when due (R52). -/
def execSoakExpiry (s : State) : Result :=
  if s.seq.scanState = .soak ∧ s.seq.timer = some 0 then .next (enterComplete s) else .next s

/-- HOLD_TIMER_EXPIRY, when due (R60). -/
def execHoldTimerExpiry (s : State) : Result :=
  if s.seq.scanState = .quenchOut ∧ s.seq.phase = some .holding ∧ s.seq.timer = some 0 then .next (enterHalted s)
  else .next s

/-- FLOOD_TIMER_EXPIRY, when due (R61). -/
def execFloodTimerExpiry (s : State) : Result :=
  if s.seq.scanState = .flood ∧ s.seq.timer = some 0 then .next (enterHalted s) else .next s

/-! ### One millisecond -/

/-- SEQ one millisecond on: the scan clock of a running scan rises, saturating, and the state timer falls (R42, R48). -/
def SeqState.tick (q : SeqState) : SeqState :=
  if q.scanState.isRunning then
    { q with clock := satAdd top32 q.clock 1, timer := q.timer.map fun t => t - 1 }
  else q

/-- A receiver one millisecond on: the time since the last byte in COLLECTING (R175). -/
def PortState.tick (p : PortState) : PortState :=
  if p.collecting then { p with idleMs := min 6 (p.idleMs + 1) } else p

/-- One millisecond with no command waiting (log entry 1). -/
def tick (s : State) : State :=
  (s.onSeq SeqState.tick).onLif fun l => { l with line := l.line.tick, service := l.service.tick }

end Sys2Proof.Machine
end

