-- ==== Sys2Proof/Machine/Dispatch.lean ====
section
/-! DEFINITION. One arm for each command, each one call of its meaning. -/

namespace Sys2Proof.Machine

def exec (i : Instr) (s : State) : Host.Outcome State Fault Refusal :=
  match i with
  | .powerOn => Sys2Proof.Machine.execPowerOn s
  | .resetPin => Sys2Proof.Machine.execResetPin s
  | .startupEnd first => Sys2Proof.Machine.execStartupEnd first s
  | .receiveByte port byte => Sys2Proof.Machine.execReceiveByte port byte s
  | .receivePause port => Sys2Proof.Machine.execReceivePause port s
  | .frameSent port => Sys2Proof.Machine.execFrameSent port s
  | .getStatus port tag payload => Sys2Proof.Machine.execGetStatus port tag payload s
  | .getLive port tag payload => Sys2Proof.Machine.execGetLive port tag payload s
  | .getFaults port tag payload => Sys2Proof.Machine.execGetFaults port tag payload s
  | .getOrders port tag payload => Sys2Proof.Machine.execGetOrders port tag payload s
  | .getProfileInfo port tag payload => Sys2Proof.Machine.execGetProfileInfo port tag payload s
  | .readProfile port tag payload => Sys2Proof.Machine.execReadProfile port tag payload s
  | .getPatches port tag payload => Sys2Proof.Machine.execGetPatches port tag payload s
  | .getConfig port tag payload => Sys2Proof.Machine.execGetConfig port tag payload s
  | .getSummary port tag payload => Sys2Proof.Machine.execGetSummary port tag payload s
  | .readSlices port tag payload => Sys2Proof.Machine.execReadSlices port tag payload s
  | .setNotices port tag payload => Sys2Proof.Machine.execSetNotices port tag payload s
  | .takeControl port tag payload => Sys2Proof.Machine.execTakeControl port tag payload s
  | .releaseControl port tag payload => Sys2Proof.Machine.execReleaseControl port tag payload s
  | .enqueueOrder port tag payload => Sys2Proof.Machine.execEnqueueOrder port tag payload s
  | .cancelOrder port tag payload => Sys2Proof.Machine.execCancelOrder port tag payload s
  | .startScan port tag payload => Sys2Proof.Machine.execStartScan port tag payload s
  | .acknowledge port tag payload => Sys2Proof.Machine.execAcknowledge port tag payload s
  | .clearFaults port tag payload => Sys2Proof.Machine.execClearFaults port tag payload s
  | .trimAdjust port tag payload => Sys2Proof.Machine.execTrimAdjust port tag payload s
  | .loadPatch port tag payload => Sys2Proof.Machine.execLoadPatch port tag payload s
  | .clearPatch port tag payload => Sys2Proof.Machine.execClearPatch port tag payload s
  | .beginProfile port tag payload => Sys2Proof.Machine.execBeginProfile port tag payload s
  | .profileVertices port tag payload => Sys2Proof.Machine.execProfileVertices port tag payload s
  | .commitProfile port tag payload => Sys2Proof.Machine.execCommitProfile port tag payload s
  | .eraseProfile port tag payload => Sys2Proof.Machine.execEraseProfile port tag payload s
  | .writeConfig port tag payload => Sys2Proof.Machine.execWriteConfig port tag payload s
  | .jog port tag payload => Sys2Proof.Machine.execJog port tag payload s
  | .restart port tag payload => Sys2Proof.Machine.execRestart port tag payload s
  | .abortScan port tag payload => Sys2Proof.Machine.execAbortScan port tag payload s
  | .commitComplete verified => Sys2Proof.Machine.execCommitComplete verified s
  | .eraseComplete verified => Sys2Proof.Machine.execEraseComplete verified s
  | .configWriteComplete verified => Sys2Proof.Machine.execConfigWriteComplete verified s
  | .setpointUpdate => Sys2Proof.Machine.execSetpointUpdate s
  | .trimHoldExpiry => Sys2Proof.Machine.execTrimHoldExpiry s
  | .axisUpdate encoder upperOpen lowerOpen => Sys2Proof.Machine.execAxisUpdate encoder upperOpen lowerOpen s
  | .stall => Sys2Proof.Machine.execStall s
  | .endOfMoveStall => Sys2Proof.Machine.execEndOfMoveStall s
  | .limitSwitchChange switch => Sys2Proof.Machine.execLimitSwitchChange switch s
  | .rotationPulse micros => Sys2Proof.Machine.execRotationPulse micros s
  | .rotationSettlingExpiry => Sys2Proof.Machine.execRotationSettlingExpiry s
  | .rotationOutOfBand => Sys2Proof.Machine.execRotationOutOfBand s
  | .channelUpdate feedback convOn convFault => Sys2Proof.Machine.execChannelUpdate feedback convOn convFault s
  | .convInputChange input => Sys2Proof.Machine.execConvInputChange input s
  | .startTimerExpiry => Sys2Proof.Machine.execStartTimerExpiry s
  | .converterStuckOn => Sys2Proof.Machine.execConverterStuckOn s
  | .powerFeedback => Sys2Proof.Machine.execPowerFeedback s
  | .pyrometerSample code => Sys2Proof.Machine.execPyrometerSample code s
  | .coolantSample code => Sys2Proof.Machine.execCoolantSample code s
  | .trackingStep => Sys2Proof.Machine.execTrackingStep s
  | .quenchUpdate ringAOpen ringBOpen floodOpen => Sys2Proof.Machine.execQuenchUpdate ringAOpen ringBOpen floodOpen s
  | .valveMismatch circuit => Sys2Proof.Machine.execValveMismatch circuit s
  | .mismatchCleared circuit => Sys2Proof.Machine.execMismatchCleared circuit s
  | .flowPulse circuit => Sys2Proof.Machine.execFlowPulse circuit s
  | .flowUpdate => Sys2Proof.Machine.execFlowUpdate s
  | .riseTimeExpiry circuit => Sys2Proof.Machine.execRiseTimeExpiry circuit s
  | .monitorUpdate levels => Sys2Proof.Machine.execMonitorUpdate levels s
  | .permitChange permit => Sys2Proof.Machine.execPermitChange permit s
  | .selectorChange => Sys2Proof.Machine.execSelectorChange s
  | .startEdge => Sys2Proof.Machine.execStartEdge s
  | .dwellExpiry => Sys2Proof.Machine.execDwellExpiry s
  | .soakExpiry => Sys2Proof.Machine.execSoakExpiry s
  | .holdTimerExpiry => Sys2Proof.Machine.execHoldTimerExpiry s
  | .floodTimerExpiry => Sys2Proof.Machine.execFloodTimerExpiry s
  | .startInputFall => Sys2Proof.Machine.execStartInputFall s

end Sys2Proof.Machine
end

