-- ==== Sys2Proof/Safety.lean ====
section
/-! DEFINITION. What counts as a safe machine: the invariants the statements speak of, each a rule of the manual that
holds at all times. Each carries what it needs to be kept by every step from every state. -/

namespace Sys2Proof.Machine

/-! ### Vocabulary of the statements -/

/-- The blocks of the part (00_scope Table 0-2), and the model's count of free values. -/
inductive Block where
  | lif | pst | ord | seq | spg | axc | cnv | slt | qch | pfm | free
  deriving DecidableEq, Repr

/-- A block's items are the same in two states. -/
def Block.same (s t : State) : Block → Prop
  | .lif => t.lif = s.lif
  | .pst => t.pst = s.pst
  | .ord => t.ord = s.ord
  | .seq => t.seq = s.seq
  | .spg => t.spg = s.spg
  | .axc => t.axc = s.axc
  | .cnv => t.cnv = s.cnv
  | .slt => t.slt = s.slt
  | .qch => t.qch = s.qch
  | .pfm => t.pfm = s.pfm
  | .free => t.freeCount = s.freeCount

/-- Nothing changes outside the blocks named: the frame of a command. -/
def ChangesOnly (bs : List Block) (s t : State) : Prop :=
  t.startup = s.startup ∧ t.pending = s.pending ∧ ∀ b, b ∉ bs → b.same s t

/-- A port changes by notices alone: frames of tag 0 joined to its transmit queue while there is room, and its
NOTICES_DROPPED flag (R179). -/
def PortState.NoticesOnly (q r : PortState) : Prop :=
  ∃ ns d, (∀ f ∈ ns, f.tag = 0) ∧ (q.tx ++ ns).length ≤ max 8 q.tx.length
    ∧ r = { q with tx := q.tx ++ ns, dropped := d }

/-- LIF changes by notices alone (R179). -/
def LifState.NoticesOnly (l m : LifState) : Prop :=
  m.holder = l.holder ∧ m.restartPending = l.restartPending ∧ ∀ p, (l.port p).NoticesOnly (m.port p)

/-! ### The notices built between two states -/

/-- A notice as its owner builds it: its kind and payload (R179). -/
abbrev Notice := NoticeKind × List Byte

/-- Notices offered to a port one after the other, each by the law of R179. -/
def PortState.offerAll (q : PortState) (ns : List Notice) : PortState := ns.foldl (fun r n => r.offer n.1 n.2) q

/-- Each port is offered the notices of a list in turn, and nothing else of it changes (R179). -/
def Offered (ns : List Notice) (s t : State) : Prop := ∀ p, t.lif.port p = (s.lif.port p).offerAll ns

/-- LIF changes by the notices of a list alone (R179). -/
def Notified (ns : List Notice) (s t : State) : Prop :=
  t.lif.holder = s.lif.holder ∧ t.lif.restartPending = s.lif.restartPending ∧ Offered ns s t

/-- The payloads of the notices of a kind, in the order in which they are offered. -/
def payloads (k : NoticeKind) (ns : List Notice) : List (List Byte) := (ns.filter fun n => n.1 == k).map Prod.snd

/-- A STATE notice by position (R43, Table 11-11): the new and the previous state, SEQ's items, the result. -/
def StateNotice (new prev : ScanState) (q : SeqState) (result : Option ScanResult) (c : List Byte) : Prop :=
  c.length = 13 ∧ field c 0 1 = new.code ∧ field c 1 1 = prev.code ∧ field c 2 1 = q.kind.code
    ∧ field c 3 4 = q.clock % 4294967296 ∧ field c 7 1 = q.dwellVertex.getD 255 % 256
    ∧ field c 8 1 = (q.abortCause.map Cause.code).getD 255 ∧ field c 9 1 = AbortAction.code q.abortAction
    ∧ field c 10 1 = (q.abortState.map ScanState.code).getD 255
    ∧ field c 11 1 = (q.escalation.map Cause.code).getD 255 ∧ field c 12 1 = (result.map ScanResult.code).getD 255

/-- A FAULT notice by position (R153, Table 11-11). -/
def FaultNotice (k : Cause) (item : CircuitItem) (found : ScanState) (clock count : Nat) (captured : Bool)
    (c : List Byte) : Prop :=
  c.length = 9 ∧ field c 0 1 = k.code ∧ field c 1 1 = item.code % 256 ∧ field c 2 1 = found.code
    ∧ field c 3 4 = clock % 4294967296 ∧ field c 7 1 = count % 256 ∧ field c 8 1 = (if captured then 1 else 0)

/-- A SLICE notice by position (R92, Table 11-11), its flags and presence bits by the places that are named. -/
def SliceNotice (k clock : Nat) (r : SliceRec) (c : List Byte) : Prop :=
  c.length = 15 ∧ field c 0 2 = k % 65536 ∧ field c 2 2 % 2048 = r.flags.toNat % 2048
    ∧ (byteAt c 4).getLsbD 0 = r.specific.isSome ∧ (byteAt c 4).getLsbD 1 = r.deviation.isSome
    ∧ (byteAt c 4).getLsbD 2 = r.transferTime.isSome ∧ field c 5 2 = r.specific.getD 0 % 65536
    ∧ field c 7 2 = (r.deviation.getD 0 % 65536).toNat ∧ field c 9 2 = min 65535 (r.transferTime.getD 0)
    ∧ field c 11 4 = clock % 4294967296

/-- A STORE notice by position (R12, Table 11-11). -/
def StoreNotice (target : Nat) (failed : Bool) (st : SlotState) (revision : Nat) (c : List Byte) : Prop :=
  c.length = 5 ∧ field c 0 1 = target % 256 ∧ field c 1 1 = (if failed then 1 else 0) ∧ field c 2 1 = st.code
    ∧ field c 3 2 = revision % 65536

/-- A SELECTOR notice by position (R149, Table 11-11). -/
def SelectorNotice (new prev : Selector) (st : ScanState) (released : Bool) (c : List Byte) : Prop :=
  c.length = 4 ∧ field c 0 1 = new.code ∧ field c 1 1 = prev.code ∧ field c 2 1 = st.code
    ∧ field c 3 1 = (if released then 1 else 0)

/-- One change of scan state: its STATE notice is built, and no other notice (R43). -/
def StateMove (new prev : ScanState) (result : Option ScanResult) (s t : State) : Prop :=
  ∃ c, Notified [(.state, c)] s t ∧ StateNotice new prev t.seq result c

/-- The STATE notices of a cause judged, q before it and r after: none where the scan state stays, one for the move, two
for a QUENCH_OUT whose holding time is 0 (R43, R60). -/
def AbortAnnounced (q r : SeqState) (cs : List (List Byte)) : Prop :=
  if r.scanState = q.scanState then cs = []
  else if r.scanState = .halted ∧ r.abortAction = some .quenchOut then
    ∃ a b, cs = [a, b] ∧ StateNotice .quenchOut q.scanState r none a ∧ StateNotice .halted .quenchOut r (some .aborted) b
  else
    ∃ a, cs = [a]
      ∧ StateNotice r.scanState q.scanState r (if r.scanState = .halted then some .aborted else none) a

/-- The SLICE notices of a marking: one for each slice marked, as the table then holds it (R92). -/
def SlicesAnnounced (marked : Nat → Prop) (clock : Nat) (table : List SliceRec) (cs : List (List Byte)) : Prop :=
  (∀ i r, marked i → table[i]? = some r → ∃ c ∈ cs, SliceNotice i clock r c)
    ∧ ∀ c ∈ cs, ∃ i r, marked i ∧ table[i]? = some r ∧ SliceNotice i clock r c

/-- A port that takes a request at its arrival: the start-up phase is over, no restart is pending, nothing waits on it
(R176, R177). -/
abbrev State.serving (s : State) (p : Port) : Prop :=
  s.startup = false ∧ s.lif.restartPending = false ∧ (s.lif.port p).inService = none ∧ (s.lif.port p).buffer = []

/-- The request of a kind as a command. -/
def RequestKind.instr (k : RequestKind) (p : Port) (tag : Byte) (bs : List Byte) : Instr :=
  match k with
  | .getStatus => .getStatus p tag bs
  | .getLive => .getLive p tag bs
  | .getFaults => .getFaults p tag bs
  | .getOrders => .getOrders p tag bs
  | .getProfileInfo => .getProfileInfo p tag bs
  | .readProfile => .readProfile p tag bs
  | .getPatches => .getPatches p tag bs
  | .getConfig => .getConfig p tag bs
  | .getSummary => .getSummary p tag bs
  | .readSlices => .readSlices p tag bs
  | .setNotices => .setNotices p tag bs
  | .takeControl => .takeControl p tag bs
  | .releaseControl => .releaseControl p tag bs
  | .enqueueOrder => .enqueueOrder p tag bs
  | .cancelOrder => .cancelOrder p tag bs
  | .startScan => .startScan p tag bs
  | .acknowledge => .acknowledge p tag bs
  | .clearFaults => .clearFaults p tag bs
  | .trimAdjust => .trimAdjust p tag bs
  | .loadPatch => .loadPatch p tag bs
  | .clearPatch => .clearPatch p tag bs
  | .beginProfile => .beginProfile p tag bs
  | .profileVertices => .profileVertices p tag bs
  | .commitProfile => .commitProfile p tag bs
  | .eraseProfile => .eraseProfile p tag bs
  | .writeConfig => .writeConfig p tag bs
  | .jog => .jog p tag bs
  | .restart => .restart p tag bs
  | .abortScan => .abortScan p tag bs

/-- The control requests of Table 10-3 other than RELEASE_CONTROL. -/
def RequestKind.needsAuthority : RequestKind → Bool
  | .enqueueOrder | .cancelOrder | .startScan | .acknowledge | .clearFaults | .trimAdjust | .loadPatch | .clearPatch
  | .beginProfile | .profileVertices | .commitProfile | .eraseProfile | .writeConfig | .jog | .restart => true
  | .getStatus | .getLive | .getFaults | .getOrders | .getProfileInfo | .readProfile | .getPatches | .getConfig
  | .getSummary | .readSlices | .setNotices | .takeControl | .releaseControl | .abortScan => false

/-- The requests whose owner looks at the selector before the frame length (R18, R118), and the one whose length
depends on its count (R10). -/
def RequestKind.lengthLater : RequestKind → Bool
  | .profileVertices | .writeConfig | .jog => true
  | .getStatus | .getLive | .getFaults | .getOrders | .getProfileInfo | .readProfile | .getPatches | .getConfig
  | .getSummary | .readSlices | .setNotices | .takeControl | .releaseControl | .enqueueOrder | .cancelOrder | .startScan
  | .acknowledge | .clearFaults | .trimAdjust | .loadPatch | .clearPatch | .beginProfile | .commitProfile | .eraseProfile
  | .restart | .abortScan => false

/-- A reply sent: its frame joins the tail of the port's transmit queue where there is room; else it waits for room
with its request still in service (R177, R178). -/
def State.reply (s : State) (p : Port) (tag : Byte) (k : RequestKind) (bs : List Byte) (st : Status)
    (content : List Byte) : State :=
  s.onLif fun l => l.onPort p fun q =>
    if q.tx.length < 8 then { q with tx := q.tx ++ [⟨tag, k.code + 0x80, byteOf st.code :: content⟩], inService := none }
    else
      { q with
        inService := some ⟨tag, k.code, bs⟩, waiting := some ⟨tag, k.code + 0x80, byteOf st.code :: content⟩ }

/-- What a read request that has no operands answers with (Table 10-3). -/
def readContent (k : RequestKind) (s : State) : List Byte :=
  match k with
  | .getFaults => faultsContent s.pfm
  | .getOrders => ordersContent s.ord
  | .getProfileInfo => profileInfoContent s.pst
  | .getPatches => patchesContent s.ord
  | .getConfig => configContent s.pst
  | .getSummary => summaryContent s.ord
  | _ => []

/-- The read requests without operands, GET_STATUS and GET_LIVE apart. -/
def RequestKind.plainRead (k : RequestKind) : Prop :=
  k = .getFaults ∨ k = .getOrders ∨ k = .getProfileInfo ∨ k = .getPatches ∨ k = .getConfig ∨ k = .getSummary

/-- The three resets with their causes (R159): the supply, the pin, and the last byte of a RESTART reply (R184). -/
def Resets (c : Instr) (cause : ResetCause) (s : State) : Prop :=
  (c = .powerOn ∧ cause = .powerOn) ∨ (c = .resetPin ∧ cause = .resetPin)
    ∨ ∃ p f rest, c = .frameSent p ∧ (s.lif.port p).tx = f :: rest ∧ f.kind = 0x9C ∧ f.payload = [0]
      ∧ s.lif.restartPending = true ∧ cause = .restartRequest

/-- Commands run one after another on the state alone; a stop ends the run. -/
def execAll : List Instr → State → Host.Outcome State Fault Refusal
  | [], s => .next s
  | c :: cs, s =>
    match exec c s with
    | .next t => execAll cs t
    | .fault f => .fault f
    | .refused r => .refused r

/-- A text field that holds 1 or more printable characters, 0 bytes filling the rest (R163, R186). -/
def ShaftText (bs : List Byte) : Prop :=
  ∃ n, 1 ≤ n ∧ n ≤ bs.length
    ∧ ∀ i b, bs[i]? = some b → if i < n then 0x20 ≤ b.toNat ∧ b.toNat ≤ 0x7E else b = 0

/-- The running scan is bound by a slot (R11). -/
def State.boundBy (s : State) (n : Nat) : Prop :=
  s.scanRunning = true ∧ ∃ w, s.ord.working = some w ∧ w.source = n

/-! ### Starting -/

/-- The vertices that the enabled patch slots naming a profile replace, each with its patch slot, in patch slot order
(R168 step 2). -/
def replacedVertices (profile : Nat) (patches : List (Option Patch)) : List (Nat × Nat) :=
  (List.range patches.length).filterMap fun k =>
    match patches.getD k none with
    | none => none
    | some q => if q.profile = profile then some (q.vertex, k + 1) else none

/-- The plan an enabled patch slot gives a vertex of a profile, if one does; the last one in patch slot order (R168
step 2). -/
def patchedPlan (profile vertex : Nat) (patches : List (Option Patch)) : Option VertexPlan :=
  ((patches.filterMap id).filter fun q => q.profile == profile && q.vertex == vertex).getLast?.map Patch.plan

/-- The candidate working profile of an order (R168 steps 1 and 2): the header and vertices of its slot, a patched vertex
keeping its position alone. -/
def Candidate (o : Order) (w : Working) (s : State) : Prop :=
  w.source = o.profile ∧ w.revision = (s.pst.slot o.profile).revision
    ∧ w.profile.header = (s.pst.slot o.profile).profile.header
    ∧ w.replaced = replacedVertices o.profile s.ord.patches
    ∧ (∀ r ∈ w.replaced, r.1 < (s.pst.slot o.profile).profile.vertices.length)
    ∧ ∀ i, w.profile.vertices[i]? = ((s.pst.slot o.profile).profile.vertices[i]?).map fun v =>
        Vertex.mk v.position ((patchedPlan o.profile i s.ord.patches).getD v.plan)

/-- The start conditions of Table 9-2 hold for the head order o with working profile w. -/
def StartAllowed (o : Order) (w : Working) (s : State) : Prop :=
  s.seq.scanState = .idle ∧ s.pfm.selector ≠ .locked ∧ s.pfm.firstFault = none
    ∧ (s.pst.slot o.profile).revision = o.revision ∧ (s.pst.slot o.profile).state ≠ .writing
    ∧ Candidate o w s ∧ profileCheck s.config w.profile = none
    ∧ s.pfm.motionPermits = true ∧ s.pfm.heatPermits = true ∧ s.pst.writingConfig = false

/-- Which of several circuits stand in MISMATCH. -/
def mismatched (s : State) : List Circuit :=
  ([.ringA, .ringB, .flood] : List Circuit).filter fun c => (s.qch.circuit c).state == .mismatch

/-- The OPEN limit switch toward which an approach or a jog from rest to a target would begin (R126). -/
def approachBlocked (target : Nat) (a : AxcState) : Option LimitSwitch :=
  if a.vCmd ≠ 0 then none
  else if a.cmdPos + 5000 < 1000 * target then (if a.upperOpen then some .upper else none)
  else if 1000 * target + 5000 < a.cmdPos then (if a.lowerOpen then some .lower else none)
  else none

/-- A START may be taken and nothing stands in its way: no circuit in MISMATCH, no OPEN limit switch toward x_0. -/
def StartReady (o : Order) (w : Working) (s : State) : Prop :=
  StartAllowed o w s ∧ (∀ c, (s.qch.circuit c).state ≠ .mismatch) ∧ approachBlocked w.profile.first s.axc = none

/-- The refusals of a start in the order of Table 9-2, conditions 7 by the cases of R168: `want` is the expected tag, 0 for
none; `refused` says that the start is refused with a status and content and that nothing changes, `removed` that the head
order is removed as stale. -/
def StartRefusals (want : Nat) (s : State) (refused : Status → List Byte → Prop)
    (removed : Order → List Order → Prop) : Prop :=
  (s.seq.scanState ≠ .idle → refused .wrongState [])
    ∧ (s.seq.scanState = .idle → s.pfm.selector = .locked → refused .selector [])
    ∧ (s.seq.scanState = .idle → s.pfm.selector ≠ .locked → s.pfm.firstFault.isSome → refused .faultHeld [])
    ∧ (s.seq.scanState = .idle → s.pfm.selector ≠ .locked → s.pfm.firstFault = none →
      (s.ord.queue = [] → refused .noOrder [])
      ∧ ∀ o rest, s.ord.queue = o :: rest →
        let slot := s.pst.slot o.profile
        (want ≠ 0 → o.tag ≠ want → refused .noSuchOrder [])
        ∧ ((want = 0 ∨ o.tag = want) → (slot.revision ≠ o.revision ∨ slot.state = .writing) → removed o rest)
        ∧ ((want = 0 ∨ o.tag = want) → slot.revision = o.revision → slot.state ≠ .writing →
          (∀ k q, s.ord.patches[k]? = some (some q) → q.profile = o.profile → slot.profile.vertices.length ≤ q.vertex →
            (∀ j r, j < k → s.ord.patches[j]? = some (some r) → r.profile = o.profile →
              r.vertex < slot.profile.vertices.length) →
            refused .patchInvalid [1, 255, byteOf (k + 1)])
          ∧ ∀ w, Candidate o w s →
            (∀ code i, profileCheck s.config w.profile = some (code, i) →
              (∀ k, code ≠ .sliceCount → code ≠ .travelLength → (i, k) ∈ w.replaced →
                (∀ r ∈ w.replaced, r.1 = i → r.2 = k) →
                refused .patchInvalid [byteOf code.code, byteOf i, byteOf k])
              ∧ ((code = .sliceCount ∨ code = .travelLength ∨ ∀ r ∈ w.replaced, r.1 ≠ i) →
                refused .profileInvalid [byteOf code.code, byteOf i]))
            ∧ (profileCheck s.config w.profile = none →
              ((s.pfm.motionPermits = false ∨ s.pfm.heatPermits = false) → refused .permitMissing [])
              ∧ (s.pfm.motionPermits = true → s.pfm.heatPermits = true → s.pst.writingConfig = true →
                refused .busy []))))

/-- Slice k of a working profile as a START creates it: PENDING with its range, nothing measured, and what its governing
vertex i, whose span holds its midpoint, gives it; PATCHED where that vertex was replaced (R69, R70). -/
def CreatedSlice (w : Working) (k : Nat) (r : SliceRec) : Prop :=
  let p := w.profile
  let m := r.start + r.length / 2
  r.state = .pending ∧ r.start = p.first + k * p.header.pitch
    ∧ r.length = (if k + 1 < p.sliceCount then p.header.pitch
      else (p.last - p.first) - (p.sliceCount - 1) * p.header.pitch)
    ∧ r.eAct = 0 ∧ r.quarterTurns = 0 ∧ r.pulses = 0 ∧ r.heatScale = none ∧ r.eTgt = none ∧ r.specific = none
    ∧ r.deviation = none ∧ r.leaveTime = none ∧ r.enterTime = none ∧ r.transferTime = none ∧ r.quenchTime = none
    ∧ ∀ i, p.vertices.Pairwise (fun a b => a.position < b.position) → i + 1 < p.vertices.length →
      (p.vertex i).position ≤ m → m < (p.vertex (i + 1)).position →
      r.gov = i ∧ r.ringMask = (p.vertex i).plan.ringMask ∧ r.pattern = (p.vertex i).plan.pattern
        ∧ ∀ f, hasFlag r.flags f = true ↔ f = .patched ∧ ∃ n, (i, n) ∈ w.replaced

/-- What a START taken leaves, its STATE and its ORDER notice built (R43, R69, R70, R169, R173, Tables 2-1, 3-1, 4-1,
5-3, 6-2, 9-1). -/
def StartTaken (o : Order) (rest : List Order) (w : Working) (s t : State) : Prop :=
  t.startup = s.startup ∧ t.pending = s.pending ∧ t.pst = s.pst ∧ t.cnv = s.cnv
    ∧ (∃ c d ns, Notified ns s t ∧ ns.Perm [(.state, c), (.order, d)] ∧ StateNotice .approach .idle t.seq none c
      ∧ d.length = 5 ∧ field d 0 2 = o.tag % 65536 ∧ field d 2 1 = Status.ok.code ∧ field d 3 1 = rest.length % 256
      ∧ field d 4 1 = t.seq.kind.code)
    ∧ t.ord.queue = rest ∧ t.ord.running = some o ∧ t.ord.working = some w ∧ t.ord.summary = none
    ∧ t.ord.patches = s.ord.patches
    ∧ t.seq = { SeqState.reset with
        scanState := .approach, kind := if s.pfm.selector = .setup then .dry else .production
        startSelector := some s.pfm.selector }
    ∧ t.spg = SpgState.reset
    ∧ t.slt.count = w.profile.sliceCount ∧ t.slt.table.length = w.profile.sliceCount ∧ t.slt.transit = []
    ∧ w.profile.sliceCount = (w.profile.last - w.profile.first + w.profile.header.pitch - 1) / w.profile.header.pitch
    ∧ (∀ k r, t.slt.table[k]? = some r → CreatedSlice w k r)
    ∧ t.slt.underCoil = none ∧ t.slt.atQuench = none ∧ t.slt.mark = none ∧ t.slt.unassigned = 0
    ∧ t.slt.floodStatus = .unmarked
    ∧ t.axc.travel = .movingTo ∧ t.axc.moveKind = some .approach ∧ t.axc.target = some w.profile.first
    ∧ t.axc.x = s.axc.x ∧ t.axc.cmdPos = s.axc.cmdPos ∧ t.axc.highMark = none ∧ t.axc.nextDwell = none
    ∧ t.axc.spindleCmd = (w.profile.vertex 0).plan.spindle ∧ t.axc.rotation = .settling ∧ t.axc.rotationTimer = 0
    ∧ t.qch.patternCount = 0 ∧ t.qch.patternTravel = 0 ∧ t.qch.patternMark = none
    ∧ (∀ c, (t.qch.circuit c).output = false)
    ∧ t.pfm.resultGood = false ∧ t.pfm.resultReject = false ∧ t.pfm.lampReady = false ∧ t.pfm.firstFault = none
    ∧ t.pfm.counts = s.pfm.counts ∧ t.pfm.permits = s.pfm.permits ∧ t.pfm.selector = s.pfm.selector

/-- The flow a flow update forms on a circuit from the pulses of the last ten periods of 10 ms (R105). -/
def State.flowFormed (s : State) (c : Circuit) : Nat :=
  min 65535 (halfUp (((s.qch.circuit c).pulses + (s.qch.circuit c).window.sum) * 600) s.config.flowPulsesPerLitre)

/-- The minimum flow of a circuit in the configuration record in force (R106). -/
def State.leastFlow (s : State) : Circuit → Nat
  | .ringA => s.config.minFlowA
  | .ringB => s.config.minFlowB
  | .flood => s.config.minFlowFlood

/-- A flow update finds a circuit in WATCHING with its flow below the minimum (R107, R108). -/
def State.findsLow (s : State) (c : Circuit) : Prop :=
  (s.qch.circuit c).check = .watching ∧ s.flowFormed c < s.leastFlow c

/-- The commands that raise a cause, each with the condition its rule gives, and the cause and item it raises (R115,
R124, R126, R129, R134 to R136, R142, R96, R108). -/
def Raises (c : Instr) (k : Cause) (item : CircuitItem) (s : State) : Prop :=
  (c = .stall ∧ k = .stall ∧ item = .noItem ∧ 0 < s.axc.stallTimer ∧ s.config.stallTime ≤ s.axc.stallTimer)
    ∨ (c = .endOfMoveStall ∧ k = .stall ∧ item = .noItem ∧ s.axc.waiting = .timed
      ∧ s.config.stallTime ≤ s.axc.waitTime)
    ∨ (c = .limitSwitchChange .upper ∧ k = .travelLimit ∧ item = .limitSwitch .upper ∧ 5 ≤ s.axc.upperStable
      ∧ s.axc.upperInput = true ∧ s.axc.upperOpen = false ∧ s.axc.travel ≠ .stopped)
    ∨ (c = .limitSwitchChange .lower ∧ k = .travelLimit ∧ item = .limitSwitch .lower ∧ 5 ≤ s.axc.lowerStable
      ∧ s.axc.lowerInput = true ∧ s.axc.lowerOpen = false ∧ s.axc.travel ≠ .stopped)
    ∨ (c = .rotationSettlingExpiry ∧ k = .rotation ∧ item = .noItem ∧ s.axc.rotation = .settling
      ∧ 5000 ≤ s.axc.rotationTimer)
    ∨ (c = .rotationOutOfBand ∧ k = .rotation ∧ item = .noItem ∧ s.axc.rotation = .outOfBand
      ∧ 201 ≤ s.axc.rotationTimer)
    ∨ (c = .startTimerExpiry ∧ k = .converterNoStart ∧ item = .noItem ∧ s.cnv.state = .starting
      ∧ s.cnv.startTimer = some 0)
    ∨ (c = .convInputChange .convOn ∧ k = .converterTrip ∧ item = .noItem ∧ s.cnv.state = .running
      ∧ 5 ≤ s.cnv.onStable ∧ s.cnv.onInput = false ∧ s.cnv.convOn = true)
    ∨ (c = .convInputChange .convFault ∧ k = .converterTrip ∧ item = .noItem ∧ s.cnv.state = .running
      ∧ 5 ≤ s.cnv.faultStable ∧ s.cnv.faultInput = true ∧ s.cnv.convFault = false)
    ∨ (c = .powerFeedback ∧ k = .powerFeedback ∧ item = .noItem ∧ s.cnv.state = .running
      ∧ 500 ≤ s.cnv.deviationTimer)
    ∨ (∃ code : AdcCode, c = .coolantSample code ∧ k = .coolantHot ∧ item = .noItem ∧ s.startup = false
      ∧ s.seq.scanState.isHeat = true ∧ s.config.coolantTrip ≤ halfUp (code.toNat * 1000) 4095)
    ∨ (∃ x, c = .valveMismatch x ∧ k = .valveMismatch ∧ item = .circuit x ∧ (s.qch.circuit x).state ≠ .mismatch
      ∧ 151 ≤ (s.qch.circuit x).disagree)
    ∨ (c = .riseTimeExpiry .flood ∧ k = .flowLow ∧ item = .circuit .flood ∧ s.qch.flood.check = .rising
      ∧ s.config.flowRiseTime ≤ s.qch.flood.riseElapsed)
    ∨ (c = .flowUpdate ∧ k = .flowLow ∧ item = .circuit .flood ∧ s.startup = false ∧ s.findsLow .flood
      ∧ s.qch.flood.lowRaised = false)
    ∨ (∃ x, c = .permitChange x ∧ item = .noItem
      ∧ ((x = .coolantFlowOk ∧ k = .coolantFlow) ∨ (x = .guardClosed ∧ k = .guardOpen) ∨ (x = .estopClear ∧ k = .estop)
        ∨ (x = .quenchPressureOk ∧ k = .quenchPressure))
      ∧ s.scanRunning = true ∧ 5 ≤ permitGet s.pfm.permitStable x ∧ permitGet s.pfm.permitInputs x = false
      ∧ permitGet s.pfm.permits x = true)

/-- The causes of each class (Table 3-3); ESTOP is a class of its own. -/
def heatLossCauses : List Cause :=
  [.converterNoStart, .converterTrip, .powerFeedback, .coolantFlow, .coolantHot, .rotation, .hostAbort, .selector]

def travelLossCauses : List Cause := [.following, .stall, .reversal, .travelLimit, .driveNotReady, .guardOpen]

def quenchLossCauses : List Cause := [.quenchPressure, .valveMismatch, .flowLow]

/-- The four scan states from the start of heat to the end of the soak. -/
def ScanState.midScan (st : ScanState) : Prop := st = .dwell ∨ st = .scan ∨ st = .runout ∨ st = .soak

/-- The action a cause takes by the state found, none for no change: the rows of Tables 3-4 and 3-5, one a line. -/
def ActionByTable (k : Cause) (q : SeqState) (policy : Byte) (act : Option AbortAction) : Prop :=
  ((q.scanState = .idle ∨ q.scanState = .halted) → act = none)
    ∧ ((q.scanState = .approach ∨ q.scanState = .ignite) → act = some .stop)
    ∧ (q.scanState.midScan → q.kind = .dry → act = some .stop)
    ∧ (q.scanState.midScan → q.kind = .production → k ∈ heatLossCauses → policy = 1 → act = some .flood)
    ∧ (q.scanState.midScan → q.kind = .production → k ∈ heatLossCauses → policy ≠ 1 → act = some .quenchOut)
    ∧ (q.scanState.midScan → q.kind = .production → k ∈ travelLossCauses → act = some .flood)
    ∧ (q.scanState.midScan → q.kind = .production → (k ∈ quenchLossCauses ∨ k = .estop) → act = some .stop)
    ∧ (q.scanState = .quenchOut → q.kind = .production → k ∈ heatLossCauses → k ≠ .hostAbort → act = none)
    ∧ (q.scanState = .quenchOut → q.kind = .production → (k = .hostAbort ∨ k ∈ travelLossCauses) → act = some .flood)
    ∧ (q.scanState = .quenchOut → q.kind = .production → (k ∈ quenchLossCauses ∨ k = .estop) → act = some .stop)
    ∧ (q.scanState = .flood → q.kind = .production → (k ∈ heatLossCauses ∨ k ∈ travelLossCauses) → act = none)
    ∧ (q.scanState = .flood → q.kind = .production → (k ∈ quenchLossCauses ∨ k = .estop) → act = some .stop)

/-- The abort record after cause k with action act: the record of a first cause, or the escalation of a further one
under QUENCH_OUT or FLOOD (R57, R63). -/
def RecordsCause (k : Cause) (act : AbortAction) (q r : SeqState) : Prop :=
  r.abortAction = some act
    ∧ if q.scanState = .quenchOut ∨ q.scanState = .flood then
        r.escalation = some k ∧ r.abortCause = q.abortCause ∧ r.abortState = q.abortState
      else r.abortCause = some k ∧ r.abortState = some q.scanState ∧ r.escalation = q.escalation

/-- Heating has ended: the power command and its code 0, the pending scale dropped, the channel neither starting nor
running (R21, R29, R133). -/
def HeatEnded (t : State) : Prop :=
  t.spg.pCmd = 0 ∧ t.spg.pPrev = 0 ∧ t.spg.dacCode = 0 ∧ t.spg.pendingScale = none ∧ t.cnv.state ≠ .starting
    ∧ t.cnv.state ≠ .running

/-- An abort action carried out by SEQ (R59 to R62): the scan state it leads to, with its timer, heating ended. A
QUENCH_OUT whose holding time is 0 passes on to HALTED at once (R60). -/
def ActionTaken (act : AbortAction) (s t : State) : Prop :=
  HeatEnded t
    ∧ match act with
      | .stop => t.seq.scanState = .halted ∧ t.seq.timer = none ∧ t.axc.spindleCmd = 0
      | .flood => t.seq.scanState = .flood ∧ t.seq.timer = some s.config.floodTime
      | .quenchOut => t.seq.scanState = .quenchOut ∨ (t.seq.scanState = .halted ∧ s.profile.header.soakTime = 0)

/-- SEQ has judged cause k: by the tables nothing changed, or the action was taken and recorded. -/
def Judged (k : Cause) (s t : State) : Prop :=
  ∃ act, ActionByTable k s.seq s.profile.header.policy act
    ∧ match act with
      | none => t.seq = s.seq
      | some a => ActionTaken a s t ∧ RecordsCause k a s.seq t.seq

/-! ### A rise toward an OPEN upper switch -/

/-- A cause that leads to QUENCH_OUT finds a slice to drain and the upper switch OPEN over a carriage at rest, so that the
rise it begins is forbidden (R59, R126). -/
def State.riseBlocked (s : State) : Prop :=
  s.seq.kind = .production ∧ s.profile.header.policy ≠ 1
    ∧ (s.seq.scanState = .dwell ∨ s.seq.scanState = .scan ∨ s.seq.scanState = .runout)
    ∧ (s.slt.transit ≠ [] ∨ s.slt.underCoil.isSome) ∧ s.axc.upperOpen = true ∧ s.axc.vCmd = 0

/-- What follows a TRAVEL_LIMIT raised alone at a forbidden rise, by the sequencer items q that SEQ then holds: FLOOD, or
STOP in a dry scan, recorded as a cause found in q; the quick stop; the fault counted and captured; among the notices ns
the one FAULT notice, and the STATE notices of the move to q's state and of the move out of it (R43, R58, R63, R123, R126,
R150, R153). -/
def TravelLimitFollows (q : SeqState) (ns : List Notice) (s t : State) : Prop :=
  let act := if q.kind = .dry then AbortAction.stop else .flood
  (∃ c, payloads .fault ns = [c] ∧ FaultNotice .travelLimit (.limitSwitch .upper) q.scanState s.seq.clock
      (t.pfm.count .travelLimit) s.pfm.firstFault.isNone c)
    ∧ (∃ a b, payloads .state ns = [a, b] ∧ field a 0 1 = q.scanState.code ∧ field a 1 1 = s.seq.scanState.code
      ∧ StateNotice t.seq.scanState q.scanState t.seq (if act = .stop then some .aborted else none) b)
    ∧ ActionTaken act s t ∧ RecordsCause .travelLimit act q t.seq
    ∧ t.axc.travel = .brakingTo ∧ t.axc.moveKind = some .stop ∧ t.axc.target = none ∧ t.axc.vCmd = 0
    ∧ t.axc.waiting = .timed ∧ t.axc.waitTime = 0 ∧ t.axc.cmdPos = s.axc.cmdPos
    ∧ t.pfm.count .travelLimit = min 255 (s.pfm.count .travelLimit + 1)
    ∧ (∀ k, k ≠ .travelLimit → t.pfm.count k = s.pfm.count k)
    ∧ (s.pfm.firstFault = none → ∃ r, t.pfm.firstFault = some r ∧ r.kind = .travelLimit
      ∧ r.item = .limitSwitch .upper ∧ r.scanState = q.scanState)

/-! ### Slices -/

/-- A slice that an abort finds unfinished. -/
def SliceRec.unfinished (r : SliceRec) : Prop := r.state = .heating ∨ r.state = .inTransit ∨ r.state = .quenching

/-- A slice made DONE by an abort with a flag at a scan clock, in a production scan (R85, R90, R91). -/
def FinishedBy (f : SliceFlag) (clock : Nat) (r r' : SliceRec) : Prop :=
  r'.state = .done ∧ hasFlag r'.flags f = true ∧ r'.eAct = r.eAct ∧ r'.eTgt = r.eTgt ∧ r'.enterTime = r.enterTime
    ∧ r'.transferTime = r.transferTime
    ∧ (r.state = .heating → hasFlag r'.flags .heatCut = true ∧ r'.leaveTime = some clock)
    ∧ (r.state ≠ .heating → hasFlag r'.flags .heatCut = hasFlag r.flags .heatCut ∧ r'.leaveTime = r.leaveTime)
    ∧ (∀ m, r.state = .quenching → r.enterTime = some m → r'.quenchTime = some (clock - m))
    ∧ (r.state ≠ .quenching → r'.quenchTime = r.quenchTime)
    ∧ r'.specific = some (min 65535 (halfUp (10 * r.eAct) r.length))

/-- No slice enters or leaves quench at a quench point. -/
def QuenchWaits (qp : Int) (t : SltState) : Prop :=
  (∀ a r, t.atQuench = some a → t.table[a]? = some r → qp < r.endPos)
    ∧ ∀ a rest r, t.atQuench = none → t.transit = a :: rest → t.table[a]? = some r → qp < r.start

/-- No slice leaves heat at a high mark. -/
def HeatStays (h : Nat) (t : SltState) : Prop := ∀ k r, t.underCoil = some k → t.table[k]? = some r → h < r.endPos

/-! ### Plan and axis -/

/-- A planned value on a RAMP from a to b over dx, at du above its start (R23, R24). -/
def rampAt (a b dx du : Nat) : Nat :=
  (clampInt (min a b) (max a b) (a + halfAway (halfAway (((b : Int) - a) * 4096) dx * du) 4096)).toNat

/-- Planned power at a position of the span of vertex v below vertex w: shape code 0 is RAMP (R1, R24). -/
def plannedPower (v w : Vertex) (y : Nat) : Nat :=
  if v.plan.shape = 0 then rampAt v.plan.power w.plan.power (w.position - v.position) (y - v.position) else v.plan.power

/-- Planned speed at a position of the span of vertex v below vertex w (R24). -/
def plannedSpeed (v w : Vertex) (y : Nat) : Nat :=
  if v.plan.shape = 0 then rampAt v.plan.speed w.plan.speed (w.position - v.position) (y - v.position) else v.plan.speed

/-- The active span of vertex i with its slopes (R22, R23). -/
def spanAt (p : Profile) (i : Nat) : ActiveSpan :=
  let v := p.vertex i
  let w := p.vertex (i + 1)
  { index := i, x := v.position, power := v.plan.power, speed := v.plan.speed
    slopes := if v.plan.shape = 0 then
        some (halfAway (((w.plan.power : Int) - v.plan.power) * 4096) (w.position - v.position),
          halfAway (((w.plan.speed : Int) - v.plan.speed) * 4096) (w.position - v.position))
      else none }

/-- A scan that has not reached the last vertex when the encoder reads e. -/
def State.belowLast (s : State) (e : Nat) : Prop := ∀ h, s.axc.highMark = some h → max e h < s.profile.last

/-- FOLLOWING does not hold when the encoder reads e (R124). -/
def State.follows (s : State) (e : Nat) : Prop := absDiff s.axc.cmdPos (1000 * e) ≤ 1000 * s.config.followingLimit

/-- REVERSAL does not hold when the encoder reads e (R125). -/
def State.rises (s : State) (e : Nat) : Prop := ∀ h, s.axc.highMark = some h → h ≤ e + s.config.reversalLimit

/-- The stall timer does not reach the stall time when the encoder reads e (R124). -/
def State.moves (s : State) (e : Nat) : Prop :=
  s.axc.travel ≠ .tracking ∨ s.axc.vCmd < 50 ∨ s.axc.stallRef + 10 ≤ e ∨ s.axc.stallTimer + 1 < s.config.stallTime

/-- A commanded position after an update at a speed in a direction, 0.001 pu; it stops at the ends of its range (R114; log
entry 23). -/
def movedTo (d : Direction) (pos v : Nat) : Nat :=
  match d with
  | .up => min 250000000 (pos + v)
  | .down => pos - v

/-- A target lies ahead of a commanded position in the direction of travel (R117). -/
def aheadOf (d : Direction) (pos goal : Nat) : Prop := (d = .up ∧ pos < goal) ∨ (d = .down ∧ goal < pos)

/-- The limit switch toward which a motion would begin, if it is OPEN (R126). -/
def AxcState.openToward (a : AxcState) (d : Direction) : Option LimitSwitch :=
  match d with
  | .up => if a.upperOpen then some .upper else none
  | .down => if a.lowerOpen then some .lower else none

/-- The speed of one braking update: less by A, not below 50, kept at 50 or less (R117). -/
def brakedSpeed (a v : Nat) : Nat := if v ≤ 50 then v else max 50 (v - a)

/-- The measured speed that the next axis update finds, the time since the last pulse having run on to its millisecond's
end (R128; log entries 25 and 26). -/
def State.speedNext (s : State) : Nat :=
  match s.axc.sincePulse with
  | none => s.axc.spindleSpeed
  | some t =>
    let since := t + (1000 - s.axc.usInMs)
    if 12000000 ≤ since * s.config.pulsesPerRev then 0
    else
      match s.axc.lastPeriod with
      | none => s.axc.spindleSpeed
      | some period =>
        if period < since then min 65535 (halfUp 60000000 (since * s.config.pulsesPerRev)) else s.axc.spindleSpeed

/-- The measured speed that the next axis update finds lies in band of the command (R129). -/
def State.bandNext (s : State) : Prop :=
  s.axc.spindleCmd ≠ 0
    ∧ absDiff s.speedNext s.axc.spindleCmd * 100 ≤ s.config.rotationBand * s.axc.spindleCmd

/-- The next dwell vertex above vertex j: the lowest with a dwell, or none (R120, Table 6-2). -/
def NextDwell (p : Profile) (j : Nat) (next : Option Nat) : Prop :=
  (∀ i, next = some i → j < i ∧ i < p.vertices.length ∧ 0 < (p.vertex i).plan.dwell
      ∧ ∀ m, j < m → m < i → (p.vertex m).plan.dwell = 0)
    ∧ (next = none → ∀ m, j < m → m < p.vertices.length → (p.vertex m).plan.dwell = 0)

/-- The channel in STARTING finds the converter on at a change of input i: CONV_ON rises, or CONV_FAULT falls with CONV_ON
high (R134). -/
def CnvState.findsOn (c : CnvState) (i : ConvInput) : Prop :=
  c.state = .starting
    ∧ ((i = .convOn ∧ 5 ≤ c.onStable ∧ c.onInput = true ∧ c.convOn = false ∧ c.convFault = false)
      ∨ (i = .convFault ∧ 5 ≤ c.faultStable ∧ c.faultInput = false ∧ c.convFault = true ∧ c.convOn = true))

/-- Entry to heat with the high mark at h: DWELL where vertex 0 has a dwell, else SCAN; span 0 active, the trim and the
command at rest; slice 0 HEATING with its target, the travel part from the plan at its midpoint and in DWELL the dwell part
(R45, R47, R72, R83, R84); the STATE notice of the move alone is built (R43). -/
def HeatEntered (h : Nat) (s t : State) : Prop :=
  let v := (s.profile.vertex 0).plan
  t.seq = (if 0 < v.dwell then { s.seq with scanState := .dwell, dwellVertex := some 0, timer := some v.dwell }
      else { s.seq with scanState := .scan, dwellVertex := none, timer := none })
    ∧ t.spg.span = some (spanAt s.profile 0) ∧ t.spg.trim = .acquiring ∧ t.spg.lastCorr = 0 ∧ t.spg.pCmd = 0
    ∧ t.spg.pPrev = 0 ∧ t.spg.dacCode = 0 ∧ t.spg.scale = s.spg.scale ∧ t.slt.underCoil = some 0
    ∧ t.slt.mark = some h
    ∧ (∀ r, s.slt.table[0]? = some r → ∃ q, t.slt.table[0]? = some q ∧ q.state = .heating
      ∧ q.heatScale = some s.spg.scale
      ∧ ∀ i, s.profile.vertices.Pairwise (fun a b => a.position < b.position) → i + 1 < s.profile.vertices.length →
        let m := r.start + r.length / 2
        let a := s.profile.vertex i
        let b := s.profile.vertex (i + 1)
        a.position ≤ m → m < b.position →
        q.eTgt = some (halfUp (halfUp (plannedPower a b m * s.spg.scale) 1000 * 1000 * r.length) (plannedSpeed a b m)
          + if 0 < v.dwell then halfUp (v.power * s.spg.scale) 1000 * v.dwell else 0))
    ∧ (∀ i, i ≠ 0 → t.slt.table[i]? = s.slt.table[i]?)
    ∧ t.axc.spindleCmd = v.spindle ∧ (v.dwell = 0 → t.axc.travel = .tracking)
    ∧ t.pst = s.pst ∧ t.ord = s.ord ∧ t.pfm.counts = s.pfm.counts
    ∧ StateMove t.seq.scanState s.seq.scanState none s t

/-! ### Replies by position -/

/-- The header part of a READ_PROFILE reply by position (section 11.4, Table 11-4). -/
def HeaderReply (c : List Byte) (revision count : Nat) (h : Header) : Prop :=
  field c 0 2 = revision % 65536 ∧ field c 2 1 = count % 256 ∧ (h.name.length = 16 → (c.drop 3).take 16 = h.name
    ∧ field c 19 2 = h.pitch % 65536 ∧ field c 21 2 = h.quenchOffset % 65536 ∧ field c 23 2 = h.maxTransfer % 65536
    ∧ field c 25 2 = h.tolerance % 65536 ∧ field c 27 2 = h.ceiling % 65536 ∧ field c 29 2 = h.floor % 65536
    ∧ field c 31 2 = h.soakTime % 65536 ∧ byteAt c 33 = h.policy
    ∧ ∀ q rest, h.patterns = q :: rest → field c 34 1 = q.period % 256)

/-- A chunk part of a READ_PROFILE reply by position: the vertices returned, 19 bytes each from byte 4 on (section 11.4,
Table 11-5). -/
def ChunkReply (c : List Byte) (revision k : Nat) (vs : List Vertex) : Prop :=
  c.length = 4 + 19 * vs.length ∧ field c 0 2 = revision % 65536 ∧ field c 2 1 = k % 256 ∧ field c 3 1 = vs.length % 256
    ∧ ∀ i v, vs[i]? = some v → field c (4 + 19 * i) 3 = v.position % 16777216
      ∧ field c (7 + 19 * i) 2 = v.plan.power % 65536 ∧ field c (9 + 19 * i) 2 = v.plan.speed % 65536
      ∧ field c (11 + 19 * i) 2 = v.plan.spindle % 65536 ∧ field c (13 + 19 * i) 2 = v.plan.dwell % 65536
      ∧ byteAt c (15 + 19 * i) = v.plan.shape ∧ field c (16 + 19 * i) 2 = v.plan.tSet % 65536
      ∧ field c (18 + 19 * i) 1 = v.plan.alpha % 256 ∧ byteAt c (19 + 19 * i) = v.plan.ringMask
      ∧ field c (20 + 19 * i) 1 = v.plan.pattern % 256 ∧ field c (21 + 19 * i) 1 = (if v.plan.restart then 1 else 0)
      ∧ field c (22 + 19 * i) 1 = v.plan.minTurns % 256

/-- A slice record of a READ_SLICES reply by position, from byte i on (Table 11-6). -/
def SliceAt (c : List Byte) (i : Nat) (r : SliceRec) : Prop :=
  field c i 3 = r.start % 16777216 ∧ field c (i + 3) 2 = r.length % 65536 ∧ field c (i + 5) 1 = r.gov % 256
    ∧ field c (i + 6) 1 % 8 = r.state.code ∧ field c (i + 7) 2 = r.flags.toNat
    ∧ field c (i + 10) 4 = r.eAct % 4294967296 ∧ field c (i + 14) 2 = r.heatScale.getD 0 % 65536
    ∧ field c (i + 16) 4 = r.eTgt.getD 0 % 4294967296 ∧ field c (i + 20) 2 = r.specific.getD 0 % 65536
    ∧ field c (i + 24) 2 = r.quarterTurns % 65536 ∧ field c (i + 26) 3 = min 16777215 (r.leaveTime.getD 0)
    ∧ field c (i + 29) 3 = min 16777215 (r.enterTime.getD 0) ∧ field c (i + 32) 2 = min 65535 (r.transferTime.getD 0)
    ∧ field c (i + 34) 2 = min 65535 (r.quenchTime.getD 0)

/-- The trim correction of one update and the state, last correction and hold time after it (R30, R31). -/
def TrimRule (s : State) (v : VertexPlan) (corr : Int) (g : SpgState) : Prop :=
  (s.cnv.tValid = true
      ∧ corr = (if v.tSet = 0 then 0 else
          clampInt (-(s.config.trimLimit : Int)) s.config.trimLimit
            (halfAway (s.config.trimGain * ((v.tSet : Int) - s.cnv.tMeas)) 16))
      ∧ g = { s.spg with trim := .tracking, lastCorr := corr })
    ∨ (s.cnv.tValid = false ∧ (s.spg.trim = .acquiring ∨ s.spg.trim = .lost) ∧ corr = 0 ∧ g = s.spg)
    ∨ (s.cnv.tValid = false ∧ s.spg.trim = .tracking ∧ corr = s.spg.lastCorr
      ∧ g = { s.spg with trim := .holding, holdTime := 0 })
    ∨ (s.cnv.tValid = false ∧ s.spg.trim = .holding ∧ s.spg.holdTime < 199
      ∧ corr = (if v.tSet = 0 then 0 else s.spg.lastCorr) ∧ g = { s.spg with holdTime := s.spg.holdTime + 1 })
    ∨ (s.cnv.tValid = false ∧ s.spg.trim = .holding ∧ 199 ≤ s.spg.holdTime ∧ corr = 0
      ∧ g = { s.spg with trim := .lost, holdTime := 200, lastCorr := 0 })

/-- All the energy SLT holds: the slices' actual energies and the unassigned energy (R79, R80). -/
def SltState.allEnergy (t : SltState) : Nat := (t.table.map SliceRec.eAct).sum + t.unassigned

/-! ### Invariants -/

/-- The start-up phase finds the scan state IDLE (R41, R183). -/
def StartupIdle (s : State) : Prop := s.startup = true → s.seq.scanState = .idle

/-- The enable and setpoint outputs follow the channel state (R132). -/
def CnvState.OutputsFollow (c : CnvState) : Prop :=
  (c.enable = true ↔ c.state = .starting ∨ c.state = .running)
    ∧ (c.state = .running → c.setpoint = c.deliveredCode) ∧ (c.state ≠ .running → c.setpoint = 0)

/-- The conditions under which the power command may be above 0 (R21). -/
def State.heatAllowed (s : State) : Prop :=
  s.seq.scanState.isHeat = true ∧ s.seq.kind = .production ∧ s.pfm.heatPermits = true

/-- The power command is 0 outside the heat states, in a dry scan and while a heat permit is absent (R21). -/
def HeatOnlyWhenAllowed (s : State) : Prop :=
  StartupIdle s ∧ (s.spg.pCmd ≠ 0 → s.heatAllowed) ∧ (s.spg.pPrev = s.spg.pCmd)

/-- No code but 0 leaves the setpoint output unless the channel runs and heat is allowed (R21, R37, R132). -/
def SetpointOnlyWhenAllowed (s : State) : Prop :=
  HeatOnlyWhenAllowed s ∧ s.cnv.OutputsFollow ∧ s.cnv.deliveredCode = s.spg.dacCode ∧ (s.spg.dacCode ≠ 0 → s.heatAllowed)

/-- No scan runs while the configuration record is being written (R18, R166). -/
def NoScanDuringConfigWrite (s : State) : Prop := s.pst.writingConfig = true → s.scanRunning = false

/-- The power command never exceeds the effective ceiling (R35). -/
def PowerBounded (s : State) : Prop :=
  HeatOnlyWhenAllowed s ∧ NoScanDuringConfigWrite s
    ∧ s.spg.pCmd ≤ effectiveCeiling s.profile.header s.config s.cnv.derate

/-- A circuit's output and state (R95, R98). -/
def CircuitRec.Gated (c : CircuitRec) (permit : Bool) (st : ScanState) : Prop :=
  (c.output = true → c.demand = true ∧ permit = true ∧ st.allowsQuench = true ∧ c.state ≠ .mismatch)
    ∧ (c.state = .opened ↔ c.output = true)

/-- A valve is commanded open only while the quench permit is present and the scan state is one of the six (R98). -/
def ValvesGated (s : State) : Prop :=
  StartupIdle s ∧ ∀ c, (s.qch.circuit c).Gated s.pfm.quenchPermit s.seq.scanState

/-- A port's queues stay within their sizes, and a waiting reply keeps its request in service (R176, R178). -/
def PortState.Bounded (p : PortState) : Prop :=
  p.tx.length ≤ txRoom ∧ p.buffer.length ≤ rxRoom ∧ (p.waiting.isSome = true → p.inService.isSome = true)

/-- Both ports within their sizes (R176, R178). -/
def LinkBounded (s : State) : Prop := ∀ p, (s.lif.port p).Bounded

/-- The order queue holds at most 4 orders, no two with one tag (R162). -/
def QueueSound (s : State) : Prop :=
  s.ord.queue.length ≤ 4 ∧ (s.ord.queue.map Order.tag).Nodup ∧ ∀ o ∈ s.ord.queue, 1 ≤ o.tag

/-- At most one result indicator is on, and neither while a scan runs (R158, R169). -/
def ResultLampsExclusive (s : State) : Prop :=
  (s.scanRunning = true → s.pfm.resultGood = false ∧ s.pfm.resultReject = false)
    ∧ ¬ (s.pfm.resultGood = true ∧ s.pfm.resultReject = true)

/-- After start-up LAMP_READY and LAMP_FAULT show what R156 and R157 say of the present state. -/
def LampsFollow (s : State) : Prop :=
  s.startup = false → s.pfm.lampReady = s.lampReadyNow ∧ s.pfm.lampFault = s.lampFaultNow

/-- No port holds authority with the selector in LOCKED (R181, R182). -/
def LockedUnheld (s : State) : Prop :=
  (s.startup = true → s.lif.holder = none) ∧ (s.pfm.selector = .locked → s.lif.holder = none)

/-- The scan states before an abort. -/
def ScanState.beforeAbort : ScanState → Bool
  | .approach | .ignite | .dwell | .scan | .runout | .soak => true
  | .idle | .complete | .quenchOut | .flood | .halted => false

/-- The abort record is empty while no abort is under way and filled from the first cause on (R41, R57). -/
def AbortRecordSound (s : State) : Prop :=
  (s.seq.scanState.beforeAbort = true →
      s.seq.abortCause = none ∧ s.seq.abortAction = none ∧ s.seq.abortState = none ∧ s.seq.escalation = none)
    ∧ (s.seq.scanState.underAbort = true ∨ s.seq.scanState = .halted →
      s.seq.abortCause.isSome = true ∧ s.seq.abortAction.isSome = true ∧ s.seq.abortState.isSome = true)

/-- The QUENCH_OUT phase, the dwell vertex and the state timer are held in their own scan states only, the timer in DWELL,
SOAK, FLOOD and the holding of QUENCH_OUT, and COMPLETE is never found (R43, R48, R52, R60, R61). -/
def SequenceItemsSound (s : State) : Prop :=
  (s.seq.phase.isSome = true ↔ s.seq.scanState = .quenchOut)
    ∧ (s.seq.dwellVertex.isSome = true ↔ s.seq.scanState = .dwell)
    ∧ (s.seq.timer.isSome = true ↔ s.seq.scanState = .dwell ∨ s.seq.scanState = .soak ∨ s.seq.scanState = .flood
      ∨ (s.seq.scanState = .quenchOut ∧ s.seq.phase = some .holding))
    ∧ s.seq.scanState ≠ .complete

/-- No two enabled patch slots name the same profile and vertex; there are four slots (R170). -/
def PatchesDistinct (s : State) : Prop :=
  s.ord.patches.length = 4 ∧
    ∀ (i j : Nat) (p q : Patch), s.ord.patches[i]? = some (some p) → s.ord.patches[j]? = some (some q) → p.profile = q.profile →
      p.vertex = q.vertex → i = j

/-- The slot a write channel is busy with. -/
def WriteJob.slot : WriteJob → Option Nat
  | .commit n _ | .erase n => some n
  | .config _ => none

/-- After start-up a slot is WRITING exactly while the write channel is busy with it (R8). -/
def WritingMatchesChannel (s : State) : Prop :=
  s.pst.slots.length = 32 ∧ (s.startup = true → s.pst.channel = none)
    ∧ (s.startup = false → ∀ n, 1 ≤ n → n ≤ 32 →
      ((s.pst.slot n).state = .writing ↔ s.pst.channel.bind WriteJob.slot = some n))
    ∧ ∀ n, s.pst.channel.bind WriteJob.slot = some n → 1 ≤ n ∧ n ≤ 32

end Sys2Proof.Machine
end

