-- ==== Sys2Proof/Certificates/Slice0/Obligations.lean ====
section
/-! DEFINITION. The statements for the provers. Each docstring names the rule of spec/ it formalises, and the log entries
of the clauses that are the model's own choice; vocabulary stands in Safety.lean. -/

open Sys2Proof Sys2Proof.Machine

/-! ### The block and its queue -/

/-- The command at the front of the queue runs on the state with the queue's rest. -/
def Obligations.StepRunsFrontCommand : Prop :=
  ∀ (c : Instr) (rest : List Instr) (s : State), s.pending = c :: rest → step s = exec c (s.setPending rest)

/-- With no command waiting one millisecond passes: the model's choice, log entry 1. -/
def Obligations.EmptyQueueStepIsOneMillisecond : Prop :=
  ∀ s : State, s.pending = [] → ∃ t, step s = .next t ∧ ChangesOnly [.seq, .lif] s t
    ∧ t.seq = (if s.scanRunning then
        { s.seq with clock := min 4294967295 (s.seq.clock + 1), timer := s.seq.timer.map fun n => n - 1 } else s.seq)
    ∧ t.lif.holder = s.lif.holder ∧ t.lif.restartPending = s.lif.restartPending
    ∧ ∀ p, t.lif.port p = if (s.lif.port p).collecting then
        { s.lif.port p with idleMs := min 6 ((s.lif.port p).idleMs + 1) } else s.lif.port p

/-- Every command completes in every state and changes no waiting command (95_what_each_step_holds); an encoder operand
above 250 000 pu, for which Table 6-1 states no reading, is taken as some position of the range: the model's choice, log
entry 13. -/
def Obligations.EveryCommandCompletes : Prop :=
  (∀ (c : Instr) (s : State), ∃ t, exec c s = .next t ∧ t.pending = s.pending)
    ∧ ∀ (s : State) (e : Nat), 250000 < e →
      (s.startup = false → ∀ up low, ∃ r, r ≤ 250000
        ∧ exec (.axisUpdate e up low) s = exec (.axisUpdate r up low) s.bumpFree)
      ∧ (s.startup = true → ∀ f : FirstLevels, f.encoder = e → ∃ r, r ≤ 250000
        ∧ exec (.startupEnd f) s = exec (.startupEnd { f with encoder := r }) s.bumpFree)

/-! ### Resets and start-up -/

/-- Every reset empties LIF, ORD and the volatile part of the store, keeps the nonvolatile part, and sets SEQ, SPG, SLT,
PFM, AXC, CNV and QCH to their reset values; what is read at start-up is not stated (R17, R39, R41, R67, R95, R113,
R131, R144, R159, R161, R174, R184). The state timer, dwell vertex and phase of none follow log entry 28, and the
content kept by a slot or a stored record whose write the reset cuts off log entry 15. -/
def Obligations.ResetRestsEveryBlock : Prop :=
  ∀ (c : Instr) (cause : ResetCause) (s : State), Resets c cause s → ∃ t, exec c s = .next t
    ∧ t.startup = true ∧ t.lif.holder = none ∧ t.lif.restartPending = false
    ∧ (∀ p, (t.lif.port p).collecting = false ∧ (t.lif.port p).partialFrame = [] ∧ (t.lif.port p).buffer = []
      ∧ (t.lif.port p).inService = none ∧ (t.lif.port p).tx = [] ∧ (t.lif.port p).waiting = none
      ∧ (t.lif.port p).mask = 0 ∧ (t.lif.port p).overrun = false ∧ (t.lif.port p).dropped = false)
    ∧ t.ord.queue = [] ∧ t.ord.running = none ∧ t.ord.working = none ∧ t.ord.patches = [none, none, none, none]
    ∧ t.ord.summary = none ∧ t.ord.startStable = 0
    ∧ t.pst.stagedHeader = none ∧ t.pst.supplied = 0 ∧ t.pst.channel = none
    ∧ t.pst.slots = s.pst.slots ∧ t.pst.stored = s.pst.stored
    ∧ t.seq.scanState = .idle ∧ t.seq.kind = .production ∧ t.seq.startSelector = none ∧ t.seq.clock = 0
    ∧ t.seq.dwellVertex = none ∧ t.seq.timer = none ∧ t.seq.phase = none ∧ t.seq.abortCause = none
    ∧ t.seq.abortAction = none ∧ t.seq.abortState = none ∧ t.seq.escalation = none
    ∧ t.spg.span = none ∧ t.spg.scale = 1000 ∧ t.spg.pendingScale = none ∧ t.spg.trim = .acquiring
    ∧ t.spg.lastCorr = 0 ∧ t.spg.holdTime = 0 ∧ t.spg.pPrev = 0 ∧ t.spg.pCmd = 0 ∧ t.spg.dacCode = 0
    ∧ t.spg.plannedSpeed = none
    ∧ t.slt.table = [] ∧ t.slt.count = 0 ∧ t.slt.transit = [] ∧ t.slt.underCoil = none ∧ t.slt.atQuench = none
    ∧ t.slt.mark = none ∧ t.slt.unassigned = 0 ∧ t.slt.floodStatus = .unmarked
    ∧ (∀ x, permitGet t.pfm.permits x = false ∧ permitGet t.pfm.permitStable x = 0)
    ∧ t.pfm.selector = .locked ∧ t.pfm.selectorStable = 0 ∧ t.pfm.codeInvalid = false ∧ t.pfm.firstFault = none
    ∧ (∀ n ∈ t.pfm.counts, n = 0) ∧ t.pfm.counts.length = 19 ∧ t.pfm.resetCause = cause
    ∧ t.pfm.lampReady = false ∧ t.pfm.lampFault = .off ∧ t.pfm.resultGood = false ∧ t.pfm.resultReject = false
    ∧ t.axc.travel = .stopped ∧ t.axc.moveKind = none ∧ t.axc.target = none ∧ t.axc.direction = .up ∧ t.axc.vCmd = 0
    ∧ t.axc.holdSpeed = none ∧ t.axc.nextDwell = none ∧ t.axc.highMark = none ∧ t.axc.restCount = 0
    ∧ t.axc.waitTime = 0 ∧ t.axc.stallTimer = 0 ∧ t.axc.upperStable = 0 ∧ t.axc.lowerStable = 0
    ∧ t.axc.spindleCmd = 0 ∧ t.axc.spindleSpeed = 0 ∧ t.axc.sincePulse = none ∧ t.axc.lastPeriod = none
    ∧ t.axc.rotation = .off
    ∧ t.cnv.state = .off ∧ t.cnv.enable = false ∧ t.cnv.setpoint = 0 ∧ t.cnv.deliveredPower = 0
    ∧ t.cnv.deliveredCode = 0 ∧ t.cnv.startTimer = none ∧ t.cnv.stopTimer = none ∧ t.cnv.stuck = false
    ∧ t.cnv.deviationTimer = 0 ∧ t.cnv.onStable = 0 ∧ t.cnv.faultStable = 0 ∧ t.cnv.pMeas = 0 ∧ t.cnv.tMeas = 0
    ∧ t.cnv.tValid = false ∧ t.cnv.coolant = none ∧ t.cnv.derate = 0 ∧ t.cnv.hot = false
    ∧ (∀ x, (t.qch.circuit x).state = .closed ∧ (t.qch.circuit x).demand = false ∧ (t.qch.circuit x).output = false
      ∧ (t.qch.circuit x).readback = none ∧ (t.qch.circuit x).disagree = 0 ∧ (t.qch.circuit x).agree = 0
      ∧ (t.qch.circuit x).flow = 0 ∧ (t.qch.circuit x).check = .idle ∧ (t.qch.circuit x).riseElapsed = 0
      ∧ (t.qch.circuit x).flowLow = false)
    ∧ t.qch.patternCount = 0 ∧ t.qch.patternTravel = 0 ∧ t.qch.patternMark = none

/-- The end of the start-up phase takes the first levels of every input (R113, R131, R145, R148, R161, R183). -/
def Obligations.StartupEndTakesFirstLevels : Prop :=
  ∀ (f : FirstLevels) (s : State), s.startup = true → f.encoder ≤ 250000 → ∃ t, exec (.startupEnd f) s = .next t
    ∧ t.startup = false ∧ t.pending = s.pending
    ∧ t.seq = s.seq ∧ t.spg = s.spg ∧ t.slt = s.slt ∧ t.qch = s.qch ∧ s.lif.NoticesOnly t.lif
    ∧ t.axc = { s.axc with
        x := f.encoder, cmdPos := 1000 * f.encoder, stallRef := f.encoder, upperOpen := f.upperOpen,
        lowerOpen := f.lowerOpen, upperInput := f.upperOpen, lowerInput := f.lowerOpen }
    ∧ t.cnv = { s.cnv with
        convOn := f.convOn, convFault := f.convFault, onInput := f.convOn, faultInput := f.convFault }
    ∧ t.ord = { s.ord with startLevel := f.monitor.start, startInput := f.monitor.start }
    ∧ t.pfm.permits = f.monitor.permits ∧ t.pfm.permitInputs = f.monitor.permits
    ∧ t.pfm.selector = decodeSelector f.monitor.selSetup f.monitor.selAuto
    ∧ t.pfm.lampReady = t.lampReadyNow ∧ t.pfm.lampFault = t.lampFaultNow

/-- The start-up check: a slot found WRITING or whose CRC does not match becomes INVALID with revision 0, any other keeps
its state, revision and contents (R16). The configuration record is loaded where its stored copy matches its CRC and
carries no mark, else defaulted with CONFIG_DEFAULTED taken; the stored copy is not rewritten (R19). -/
def Obligations.StartupChecksStore : Prop :=
  ∀ (f : FirstLevels) (s : State), s.startup = true → f.encoder ≤ 250000 → s.pst.slots.length = 32 →
    s.pfm.counts.length = 19 →
    ∃ t, exec (.startupEnd f) s = .next t ∧ t.pst.slots.length = 32 ∧ t.pst.stored = s.pst.stored
      ∧ (∀ n, 1 ≤ n → n ≤ 32 →
        if (s.pst.slot n).state = .writing
            ∨ (s.pst.slot n).crc ≠ slotCrc (s.pst.slot n).state (s.pst.slot n).revision (s.pst.slot n).profile then
          (t.pst.slot n).state = .invalid ∧ (t.pst.slot n).revision = 0
        else t.pst.slot n = s.pst.slot n)
      ∧ if s.pst.stored.written = true ∧ s.pst.stored.writeMark = false
            ∧ s.pst.stored.crc = configCrc s.pst.stored.record then
          t.pst.inForce = s.pst.stored.record ∧ t.pst.source = .stored ∧ t.pfm.firstFault = s.pfm.firstFault
            ∧ t.pfm.counts = s.pfm.counts
        else
          t.pst.inForce = ConfigRecord.defaults ∧ t.pst.source = .defaults
            ∧ t.pfm.count .configDefaulted = min 255 (s.pfm.count .configDefaulted + 1)
            ∧ (s.pfm.firstFault = none → ∃ r, t.pfm.firstFault = some r ∧ r.kind = .configDefaulted
                ∧ r.item = .noItem ∧ r.scanState = s.seq.scanState)

/-! ### The link -/

/-- What a byte does to a receiver, by its state, short of completing a sound frame, and what a pause of more than 5 ms
does; a frame that fails its check (CRC, tag 0, or kind 0x80 and above) is discarded silently (R175). -/
def Obligations.ReceiverTakesByteByState : Prop :=
  (∀ (p : Port) (b : Byte) (s : State),
    ((s.lif.port p).collecting = false → b ≠ 0xA5 → exec (.receiveByte p b) s = .next s)
    ∧ ((s.lif.port p).collecting = false → b = 0xA5 →
      exec (.receiveByte p b) s = .next (s.onLif fun l => l.onPort p fun q =>
        { q with collecting := true, partialFrame := [], idleMs := 0 }))
    ∧ ((s.lif.port p).collecting = true → 5 < (s.lif.port p).idleMs → b ≠ 0xA5 →
      exec (.receiveByte p b) s = .next (s.onLif fun l => l.onPort p fun q =>
        { q with collecting := false, partialFrame := [], idleMs := 0 }))
    ∧ ((s.lif.port p).collecting = true → 5 < (s.lif.port p).idleMs → b = 0xA5 →
      exec (.receiveByte p b) s = .next (s.onLif fun l => l.onPort p fun q =>
        { q with collecting := true, partialFrame := [], idleMs := 0 }))
    ∧ ((s.lif.port p).collecting = true → (s.lif.port p).idleMs ≤ 5 → (s.lif.port p).partialFrame = [] →
      (b.toNat < 2 ∨ 242 < b.toNat) →
      exec (.receiveByte p b) s = .next (s.onLif fun l => l.onPort p fun q =>
        { q with collecting := false, partialFrame := [], idleMs := 0 }))
    ∧ (∀ n rest, (s.lif.port p).collecting = true → (s.lif.port p).idleMs ≤ 5 →
      (s.lif.port p).partialFrame ++ [b] = n :: rest → 2 ≤ n.toNat → n.toNat ≤ 242 → rest.length < n.toNat + 2 →
      exec (.receiveByte p b) s = .next (s.onLif fun l => l.onPort p fun q =>
        { q with collecting := true, partialFrame := n :: rest, idleMs := 0 }))
    ∧ ((s.lif.port p).collecting = true → 5 < (s.lif.port p).idleMs →
      exec (.receivePause p) s = .next (s.onLif fun l => l.onPort p fun q =>
        { q with collecting := false, partialFrame := [], idleMs := 0 })))
    ∧ ∀ (p : Port) (b n tag kind hi lo : Byte) (payload : List Byte) (s : State),
      (s.lif.port p).collecting = true → (s.lif.port p).idleMs ≤ 5 →
      (s.lif.port p).partialFrame ++ [b] = n :: tag :: kind :: (payload ++ [hi, lo]) →
      n.toNat = payload.length + 2 → n.toNat ≤ 242 →
      (crc16 (n :: tag :: kind :: payload) ≠ BitVec.ofNat 16 (256 * hi.toNat + lo.toNat) ∨ tag = 0 ∨ 0x80 ≤ kind.toNat) →
      exec (.receiveByte p b) s = .next (s.onLif fun l => l.onPort p fun q =>
        { q with collecting := false, partialFrame := [], idleMs := 0 })

/-- The bytes of a request's frame, one by one, arrive as that request (R175, R187, Table 11-1). -/
def Obligations.FrameBytesArriveAsRequest : Prop :=
  ∀ (k : RequestKind) (p : Port) (tag : Byte) (bs : List Byte) (s : State), tag ≠ 0 → bs.length ≤ 240 →
    (s.lif.port p).collecting = false → (s.lif.port p).partialFrame = [] → (s.lif.port p).idleMs = 0 →
    execAll ((Frame.bytes ⟨tag, k.code, bs⟩).map (Instr.receiveByte p)) s = exec (k.instr p tag bs) s

/-- A frame's place is freed when its last byte has been sent, and a waiting reply takes it at that event (R178); the
request buffered behind it is then taken and answered (R176). -/
def Obligations.SentFrameFreesItsPlace : Prop :=
  ∀ (p : Port) (f : Frame) (rest : List Frame) (s : State), (s.lif.port p).tx = f :: rest →
    (s.lif.restartPending = false ∨ f.kind ≠ 0x9C ∨ f.payload ≠ [0]) →
    ((s.lif.port p).waiting = none → ((s.lif.port p).inService.isSome ∨ (s.lif.port p).buffer = []) →
      exec (.frameSent p) s = .next (s.onLif fun l => l.onPort p fun q => { q with tx := rest }))
    ∧ (∀ w, (s.lif.port p).waiting = some w → (s.lif.port p).buffer = [] →
      exec (.frameSent p) s = .next (s.onLif fun l => l.onPort p fun q =>
        { q with tx := rest ++ [w], waiting := none, inService := none }))
    ∧ (∀ w g, (s.lif.port p).waiting = some w → (s.lif.port p).buffer = [g] →
      ∃ t status content, exec (.frameSent p) s = .next t ∧ (t.lif.port p).buffer = []
        ∧ ((∃ sent, (t.lif.port p).tx = sent ++ [⟨g.tag, g.kind + 0x80, status :: content⟩]
              ∧ (t.lif.port p).inService = none)
            ∨ ((t.lif.port p).waiting = some ⟨g.tag, g.kind + 0x80, status :: content⟩
              ∧ (t.lif.port p).inService = some g)))

/-- A request that finds one in service joins the buffer, or is discarded with OVERRUN set where it holds 2 (R176). During
the start-up phase, and while a restart is pending, every request is answered NOT_READY and nothing else follows from it;
TAKE_CONTROL and RELEASE_CONTROL carry the holder there too (R183, R184, Table 11-10). -/
def Obligations.RequestWaitsOrIsNotReady : Prop :=
  ∀ (k : RequestKind) (p : Port) (tag : Byte) (bs : List Byte) (s : State), tag ≠ 0 → bs.length ≤ 240 →
    ((s.lif.port p).inService.isSome →
      exec (k.instr p tag bs) s = .next (s.onLif fun l => l.onPort p fun q =>
        if q.buffer.length < 2 then { q with buffer := q.buffer ++ [⟨tag, k.code, bs⟩] } else { q with overrun := true }))
    ∧ ((s.lif.port p).inService = none → (s.lif.port p).buffer = [] →
      (s.startup = true ∨ s.lif.restartPending = true) →
      exec (k.instr p tag bs) s = .next (s.reply p tag k bs .notReady
        (if k = .takeControl ∨ k = .releaseControl then [byteOf (holderCode s.lif.holder)] else [])))

/-- A request refused before its own conditions, nothing else changed: a control request from a port without authority
NOT_IN_CONTROL, one whose frame length is not the one its kind requires BAD_LENGTH; in JOG and WRITE_CONFIG the selector is
judged between the two, in PROFILE_VERTICES the length against its own count (R10, R11, R18, R118, R177, R181, R182). That
RELEASE_CONTROL judges authority before length and TAKE_CONTROL length first is the model's choice, log entry 16. -/
def Obligations.RequestRefusedBeforeItsRule : Prop :=
  ∀ (p : Port) (tag : Byte) (bs : List Byte) (s : State), tag ≠ 0 → bs.length ≤ 240 → s.serving p →
    let refused (k : RequestKind) (st : Status) (content : List Byte) : Prop :=
      exec (k.instr p tag bs) s = .next (s.reply p tag k bs st content)
    let holder : List Byte := [byteOf (holderCode s.lif.holder)]
    (∀ k : RequestKind, k.needsAuthority = true → s.lif.holder ≠ some p → refused k .notInControl [])
    ∧ (∀ (k : RequestKind) (n : Nat), k.length = some n → bs.length ≠ n → k.lengthLater = false →
      k ≠ .takeControl → k ≠ .releaseControl → (k.needsAuthority = true → s.lif.holder = some p) →
      refused k .badLength [])
    ∧ (s.lif.holder = some p → s.pfm.selector ≠ .setup → refused .jog .selector [])
    ∧ (s.lif.holder = some p → s.pfm.selector = .setup → bs.length ≠ 4 → refused .jog .badLength [])
    ∧ (s.lif.holder = some p → s.pfm.selector = .auto → refused .writeConfig .selector [])
    ∧ (s.lif.holder = some p → s.pfm.selector ≠ .auto → bs.length ≠ 45 → refused .writeConfig .badLength [])
    ∧ (s.lif.holder = some p → bs.length < 2 → refused .profileVertices .badLength [])
    ∧ (∀ first count rest, s.lif.holder = some p → bs = first :: count :: rest →
      (s.pst.stagedHeader = none → refused .profileVertices .wrongState [])
      ∧ (s.pst.stagedHeader.isSome → (count.toNat = 0 ∨ 12 < count.toNat) → refused .profileVertices .badValue [])
      ∧ (s.pst.stagedHeader.isSome → 1 ≤ count.toNat → count.toNat ≤ 12 → rest.length ≠ 19 * count.toNat →
        refused .profileVertices .badLength []))
    ∧ (bs.length ≠ 0 → refused .takeControl .badLength holder)
    ∧ (s.lif.holder ≠ some p → refused .releaseControl .notInControl holder)
    ∧ (s.lif.holder = some p → bs.length ≠ 0 → refused .releaseControl .badLength holder)

/-! ### Requests that are taken -/

/-- GET_STATUS answers its 108 bytes, the items of each group at their places in Table 11-9, and the requesting port's
OVERRUN and NOTICES_DROPPED flags are cleared at the same event, the other port's kept (R185). -/
def Obligations.GetStatusClearsOwnFlags : Prop :=
  ∀ (p : Port) (tag : Byte) (s : State), tag ≠ 0 → s.serving p →
    ∃ c, exec (.getStatus p tag []) s = .next ((s.onLif fun l => l.onPort p fun q =>
        { q with overrun := false, dropped := false }).reply p tag .getStatus [] .ok c)
      ∧ c.length = 108
      ∧ (∀ st n, (st, n) ∈ [(ScanState.idle, 0), (.approach, 1), (.ignite, 2), (.dwell, 3), (.scan, 4), (.runout, 5),
        (.soak, 6), (.quenchOut, 8), (.flood, 9), (.halted, 10)] → s.seq.scanState = st → field c 0 1 = n)
      ∧ field c 1 1 = (if s.seq.kind = .dry then 1 else 0) ∧ field c 4 4 = s.seq.clock % 4294967296
      ∧ field c 9 2 = s.seq.timer.getD 65535 % 65536 ∧ field c 12 1 = AbortAction.code s.seq.abortAction
      ∧ field c 15 2 = s.spg.scale % 65536 ∧ field c 17 2 = s.spg.pendingScale.getD 0 % 65536
      ∧ field c 23 1 = s.axc.travel.code ∧ field c 25 4 = s.axc.target.getD 4294967295 % 4294967296
      ∧ field c 29 4 = s.axc.cmdPos % 4294967296 ∧ field c 37 2 = s.axc.waitTime % 65536
      ∧ field c 39 2 = s.axc.stallTimer % 65536 ∧ field c 42 2 = s.axc.spindleCmd % 65536
      ∧ field c 47 2 = s.axc.rotationTimer % 65536
      ∧ field c 49 1 = (if s.axc.travel = .stopped ∧ s.axc.spindleSpeed = 0 then 1 else 0)
      ∧ field c 50 1 = s.cnv.state.code ∧ field c 51 1 = (if s.cnv.enable then 1 else 0)
      ∧ field c 52 2 = s.cnv.setpoint % 65536 ∧ field c 62 2 = s.cnv.derate % 65536
      ∧ field c 65 1 = s.qch.ringA.state.code ∧ field c 67 2 = s.qch.ringA.flow % 65536
      ∧ field c 71 1 = s.qch.ringB.state.code ∧ field c 77 1 = s.qch.flood.state.code
      ∧ field c 83 2 = s.qch.patternCount % 65536
      ∧ (byteAt c 88).getLsbD 0 = s.pfm.permits.coolantFlowOk ∧ (byteAt c 88).getLsbD 5 = s.pfm.permits.quenchPressureOk
      ∧ field c 91 1 = s.pfm.selector.code ∧ field c 92 1 = (if s.pfm.firstFault = none then 1 else 0)
      ∧ field c 93 1 = s.pfm.resetCause.code ∧ field c 94 1 = (if s.pfm.lampReady then 1 else 0)
      ∧ field c 98 1 = holderCode s.lif.holder ∧ field c 99 1 = portCode p
      ∧ field c 100 1 = s.lif.line.mask.toNat ∧ (byteAt c 101).getLsbD 0 = s.lif.line.overrun
      ∧ (byteAt c 101).getLsbD 1 = s.lif.line.dropped ∧ field c 103 1 = s.lif.line.tx.length % 256
      ∧ field c 104 1 = s.lif.service.mask.toNat ∧ (byteAt c 105).getLsbD 0 = s.lif.service.overrun

/-- GET_LIVE answers 25 bytes that carry the ten live values as their owners hold them, and changes nothing (R185). -/
def Obligations.GetLiveCarriesLiveValues : Prop :=
  ∀ (p : Port) (tag : Byte) (s : State), tag ≠ 0 → s.serving p →
    s.axc.x < 4294967296 → s.spg.pCmd < 65536 → s.cnv.pMeas < 65536 → s.axc.vCmd < 65536 →
    s.axc.spindleSpeed < 65536 → s.cnv.tMeas < 65536 →
    (∀ h, s.axc.highMark = some h → h < 4294967295) → (∀ c, s.cnv.coolant = some c → c < 65535) →
    (∀ k, s.slt.underCoil = some k → k < 65535) → (∀ k, s.slt.atQuench = some k → k < 65535) →
    ∃ c, exec (.getLive p tag []) s = .next (s.reply p tag .getLive [] .ok c) ∧ c.length = 25
      ∧ field c 0 4 = s.axc.highMark.getD 4294967295 ∧ field c 4 4 = s.axc.x ∧ field c 8 2 = s.spg.pCmd
      ∧ field c 10 2 = s.cnv.pMeas ∧ field c 12 2 = s.axc.vCmd ∧ field c 14 2 = s.axc.spindleSpeed
      ∧ field c 16 2 = s.cnv.tMeas ∧ field c 18 1 = (if s.cnv.tValid then 1 else 0)
      ∧ field c 19 2 = s.cnv.coolant.getD 65535 ∧ field c 21 2 = s.slt.underCoil.getD 65535
      ∧ field c 23 2 = s.slt.atQuench.getD 65535

/-- The other reads without operands answer OK with what their owner holds, the items at their places in sections 11.4 to
11.8, and change nothing (R14, R19, R155, R171, R173). The zeros after the enabled byte of a disabled patch slot are the
model's choice, log entry 50. -/
def Obligations.PlainReadsChangeNothing : Prop :=
  ∀ (p : Port) (tag : Byte) (s : State), tag ≠ 0 → s.serving p →
    let answers (k : RequestKind) (c : List Byte) : Prop := exec (k.instr p tag []) s = .next (s.reply p tag k [] .ok c)
    (∃ c, answers .getFaults c ∧ (s.pfm.firstFault = none → ∀ i, i ≤ 20 → field c i 1 = 0)
      ∧ (∀ r, s.pfm.firstFault = some r → field c 0 1 = 1 ∧ field c 1 1 = r.kind.code ∧ field c 3 1 = r.scanState.code
        ∧ field c 4 4 = r.position % 4294967296 ∧ field c 15 4 = r.clock % 4294967296
        ∧ field c 19 2 = r.orderTag.getD 0 % 65536)
      ∧ (∀ i n, s.pfm.counts[i]? = some n → field c (21 + i) 1 = n % 256)
      ∧ (s.pfm.counts.length = 19 → c.length = 41 ∧ field c 40 1 = s.pfm.resetCause.code))
    ∧ (∃ c, answers .getOrders c ∧ field c 0 1 = s.ord.queue.length % 256
      ∧ ((∀ o ∈ s.ord.queue, o.shaft.length = 20) → (∀ o, s.ord.running = some o → o.shaft.length = 20) →
        c.length = 133 ∧ field c 105 1 = (if s.ord.running = none then 0 else 1)
        ∧ field c 132 1 = (if s.ord.startLevel then 1 else 0)
        ∧ (∀ o, s.ord.running = some o → field c 106 2 = o.tag % 65536)
        ∧ ∀ i o, i < 4 → s.ord.queue[i]? = some o → field c (1 + 26 * i) 2 = o.tag % 65536
          ∧ field c (3 + 26 * i) 1 = o.profile % 256 ∧ field c (4 + 26 * i) 2 = o.revision % 65536
          ∧ (c.drop (6 + 26 * i)).take 20 = o.shaft ∧ field c (26 + 26 * i) 1 = (if o.lineStart then 1 else 0)))
    ∧ (∃ c, answers .getProfileInfo c ∧ (s.pst.slots.length = 32 → c.length = 131
      ∧ (∀ n, 1 ≤ n → n ≤ 32 → field c (4 * (n - 1)) 1 = (s.pst.slot n).state.code
        ∧ field c (4 * (n - 1) + 1) 2 = (s.pst.slot n).revision % 65536
        ∧ field c (4 * (n - 1) + 3) 1 =
          (if (s.pst.slot n).state = .valid then (s.pst.slot n).profile.vertices.length % 256 else 0))
      ∧ (s.pst.channel = none → field c 128 1 = 0)
      ∧ (∀ n q, (s.pst.channel = some (.commit n q) ∨ s.pst.channel = some (.erase n)) → field c 128 1 = n % 256)
      ∧ (∀ r, s.pst.channel = some (.config r) → field c 128 1 = 0x21)
      ∧ field c 129 1 = (if s.pst.stagedHeader = none then 0 else 1) ∧ field c 130 1 = s.pst.supplied % 256))
    ∧ (∃ c, answers .getPatches c ∧ (s.ord.patches.length = 4 → c.length = 76
      ∧ ∀ n, 1 ≤ n → n ≤ 4 →
        (s.ord.patches[n - 1]? = some none → ∀ i, i < 19 → field c (19 * (n - 1) + i) 1 = 0)
        ∧ ∀ q, s.ord.patches[n - 1]? = some (some q) → field c (19 * (n - 1)) 1 = 1
          ∧ field c (19 * (n - 1) + 1) 1 = q.profile % 256 ∧ field c (19 * (n - 1) + 2) 1 = q.vertex % 256
          ∧ field c (19 * (n - 1) + 3) 2 = q.plan.power % 65536))
    ∧ (∃ c, answers .getConfig c ∧ c.length = 47 ∧ field c 0 2 = s.config.rating % 65536
      ∧ field c 4 4 = s.config.travelLength % 4294967296 ∧ field c 21 1 = s.config.pulsesPerRev % 256
      ∧ field c 43 2 = s.config.floodTime % 65536 ∧ field c 45 1 = (if s.pst.source = .stored then 0 else 1)
      ∧ field c 46 1 = (if s.pst.writingConfig then 1 else 0))
    ∧ ∃ c, answers .getSummary c ∧ (s.ord.summary = none → c = List.replicate 65 0)
      ∧ ∀ m, s.ord.summary = some m → field c 0 1 = 1 ∧ field c 1 2 = m.tag % 65536
        ∧ (m.shaft.length = 20 → (c.drop 3).take 20 = m.shaft ∧ field c 23 1 = m.profile % 256
          ∧ field c 24 2 = m.revision % 65536 ∧ field c 27 1 = (if m.kind = .dry then 1 else 0)
          ∧ field c 28 1 = m.result.code ∧ (∀ i n, m.flagCounts[i]? = some n → field c (30 + 2 * i) 2 = n % 65536)
          ∧ (m.flagCounts.length = 11 → c.length = 65 ∧ field c 52 4 = m.energy % 4294967296
            ∧ field c 56 4 = m.time % 4294967296 ∧ field c 61 4 = m.largestTransfer.getD 0 % 4294967296))

/-- READ_PROFILE by what it names: the staging buffer, the working profile, a slot; every row of R15 in its order, with the
parts of the reply at their places (section 11.4). -/
def Obligations.ReadProfileByNamedProfile : Prop :=
  ∀ (p : Port) (tag n part : Byte) (s : State), tag ≠ 0 → s.serving p →
    let refused (st : Status) : Prop :=
      exec (.readProfile p tag [n, part]) s = .next (s.reply p tag .readProfile [n, part] st [])
    let header (revision count : Nat) (h : Header) : Prop := ∃ c, HeaderReply c revision count h
      ∧ exec (.readProfile p tag [n, part]) s = .next (s.reply p tag .readProfile [n, part] .ok c)
    let chunk (revision : Nat) (vs : List Vertex) : Prop :=
      ∃ c, ChunkReply c revision part.toNat ((vs.drop (12 * part.toNat)).take 12)
        ∧ exec (.readProfile p tag [n, part]) s = .next (s.reply p tag .readProfile [n, part] .ok c)
    (33 ≤ n.toNat → n.toNat ≤ 254 → refused .badValue)
    ∧ (n = 0 → (s.pst.stagedHeader = none → refused .wrongState)
      ∧ ∀ h, s.pst.stagedHeader = some h → (part = 0xFF → header 0 s.pst.supplied h)
        ∧ (part ≠ 0xFF → 12 * part.toNat < s.pst.supplied → chunk 0 (s.pst.stagedVertices.take s.pst.supplied))
        ∧ (part ≠ 0xFF → s.pst.supplied ≤ 12 * part.toNat → refused .badValue))
    ∧ (n = 255 → (s.ord.working = none → refused .wrongState)
      ∧ ∀ w, s.ord.working = some w → (part = 0xFF → header w.revision w.profile.vertices.length w.profile.header)
        ∧ (part ≠ 0xFF → 12 * part.toNat < w.profile.vertices.length → chunk w.revision w.profile.vertices)
        ∧ (part ≠ 0xFF → w.profile.vertices.length ≤ 12 * part.toNat → refused .badValue))
    ∧ (1 ≤ n.toNat → n.toNat ≤ 32 → let slot := s.pst.slot n.toNat
      (slot.state = .writing → refused .busy)
      ∧ ((slot.state = .empty ∨ slot.state = .invalid) → refused .profileInvalid)
      ∧ (slot.state = .valid → (part = 0xFF → header slot.revision slot.profile.vertices.length slot.profile.header)
        ∧ (part ≠ 0xFF → 12 * part.toNat < slot.profile.vertices.length → chunk slot.revision slot.profile.vertices)
        ∧ (part ≠ 0xFF → slot.profile.vertices.length ≤ 12 * part.toNat → refused .badValue)))

/-- READ_SLICES answers the records from an index upward, cut short at N − 1, each 36 bytes from byte 14 on (R93, section
11.5). Bits 11 to 15 of the flags word, which no layout names, are the model's choice, log entry 52. -/
def Obligations.ReadSlicesAnswersRecords : Prop :=
  ∀ (p : Port) (tag hi lo count : Byte) (s : State), tag ≠ 0 → s.serving p →
    let first := 256 * hi.toNat + lo.toNat
    (1 ≤ count.toNat → count.toNat ≤ 6 → s.slt.table ≠ [] → first < s.slt.count →
      ∃ c, exec (.readSlices p tag [hi, lo, count]) s = .next (s.reply p tag .readSlices [hi, lo, count] .ok c)
        ∧ field c 0 2 = first ∧ field c 2 1 = min count.toNat (s.slt.table.length - first)
        ∧ c.length = 14 + 36 * min count.toNat (s.slt.table.length - first) ∧ field c 3 2 = s.slt.count % 65536
        ∧ field c 5 2 = s.slt.underCoil.getD 65535 % 65536 ∧ field c 7 2 = s.slt.atQuench.getD 65535 % 65536
        ∧ field c 9 1 = s.slt.transit.length % 256 ∧ field c 10 4 = s.slt.unassigned % 4294967296
        ∧ ∀ j r, j < count.toNat → s.slt.table[first + j]? = some r → SliceAt c (14 + 36 * j) r)
    ∧ ((count.toNat = 0 ∨ 7 ≤ count.toNat) →
      exec (.readSlices p tag [hi, lo, count]) s = .next (s.reply p tag .readSlices [hi, lo, count] .badValue []))
    ∧ (1 ≤ count.toNat → count.toNat ≤ 6 → s.slt.table = [] →
      exec (.readSlices p tag [hi, lo, count]) s = .next (s.reply p tag .readSlices [hi, lo, count] .wrongState []))
    ∧ (1 ≤ count.toNat → count.toNat ≤ 6 → s.slt.table ≠ [] → s.slt.count ≤ first →
      exec (.readSlices p tag [hi, lo, count]) s = .next (s.reply p tag .readSlices [hi, lo, count] .badValue []))

/-- SET_NOTICES replaces the mask of its own port alone, from either port, with or without authority; a set that names
another kind is refused and changes nothing; every mask is empty after a reset; and a notice is offered to each port under
the mask it then has (R180). By R179 it joins the transmit queue where the mask holds its kind and there is room, it is
dropped with NOTICES_DROPPED set where the queue is full, and a port whose mask does not hold its kind is unchanged. -/
def Obligations.SetNoticesReplacesOwnMask : Prop :=
  ∀ s : State,
    (∀ (p : Port) (tag set : Byte), tag ≠ 0 → s.serving p →
      (set.toNat < 64 → exec (.setNotices p tag [set]) s = .next ((s.onLif fun l => l.onPort p fun q =>
          { q with mask := set.setWidth 6 }).reply p tag .setNotices [set] .ok [set]))
      ∧ (64 ≤ set.toNat → exec (.setNotices p tag [set]) s = .next (s.reply p tag .setNotices [set] .badValue [])))
    ∧ (∀ c cause, Resets c cause s → ∃ t, exec c s = .next t ∧ ∀ p, (t.lif.port p).mask = 0)
    ∧ ∀ (k : NoticeKind) (payload : List Byte),
      ChangesOnly [.lif] s (notice k payload s) ∧ Notified [(k, payload)] s (notice k payload s)
        ∧ k.code = 0xE0 + k.bit
        ∧ ∀ q : PortState,
          (q.mask.getLsbD k.bit = true → q.tx.length < 8 →
            q.offer k payload = { q with tx := q.tx ++ [⟨0, byteOf k.code, payload⟩] })
          ∧ (q.mask.getLsbD k.bit = true → 8 ≤ q.tx.length → q.offer k payload = { q with dropped := true })
          ∧ (q.mask.getLsbD k.bit = false → q.offer k payload = q)

/-- TAKE_CONTROL by the filtered selector, the holder and the port, every row of the table of R181; the reply names the
holder after the request. -/
def Obligations.TakeControlByTable : Prop :=
  ∀ (p : Port) (tag : Byte) (s : State), tag ≠ 0 → s.serving p →
    let took (h : Option Port) (st : Status) : Prop :=
      exec (.takeControl p tag []) s = .next ((s.onLif fun l => { l with holder := h }).reply p tag .takeControl [] st
        [byteOf (holderCode h)])
    (s.pfm.selector = .locked → took s.lif.holder .selector)
    ∧ (s.pfm.selector ≠ .locked → s.lif.holder = none → took (some p) .ok)
    ∧ (s.pfm.selector ≠ .locked → s.lif.holder = some p → took (some p) .ok)
    ∧ (s.pfm.selector ≠ .locked → p = .line → s.lif.holder = some .service → took (some .service) .notInControl)
    ∧ (s.pfm.selector = .setup → p = .service → s.lif.holder = some .line → took (some .service) .ok)
    ∧ (s.pfm.selector = .auto → p = .service → s.lif.holder = some .line → took (some .line) .selector)

/-- RELEASE_CONTROL from the holding port leaves no holder; from another port it is refused and nothing changes
(R182). -/
def Obligations.ReleaseControlFreesAuthority : Prop :=
  ∀ (p : Port) (tag : Byte) (s : State), tag ≠ 0 → s.serving p →
    (s.lif.holder = some p → exec (.releaseControl p tag []) s = .next ((s.onLif fun l =>
        { l with holder := none }).reply p tag .releaseControl [] .ok [0]))
    ∧ (s.lif.holder ≠ some p → exec (.releaseControl p tag []) s = .next (s.reply p tag .releaseControl []
        .notInControl [byteOf (holderCode s.lif.holder)]))

/-- ENQUEUE_ORDER by the conditions of R163 in their order: fields out of range, a full queue, a tag already queued, a slot
WRITING or not VALID are refused and change nothing; when it is taken the order is appended at the tail with the slot's
present revision, LAMP_READY is re-formed, the ORDER notice built and the number of orders answered (R163, R156, R173).
The reply behind the notice is the model's reading, log entry 48. -/
def Obligations.EnqueueAppendsOrder : Prop :=
  ∀ (p : Port) (tag : Byte) (bs : List Byte) (o : Order) (s : State), tag ≠ 0 → s.serving p →
    s.lif.holder = some p → bs.length = 24 → field bs 0 2 = o.tag → field bs 2 1 = o.profile →
    (bs.drop 3).take 20 = o.shaft → (o.lineStart = true ↔ byteAt bs 23 ≠ 0) →
    let slot := s.pst.slot o.profile
    let fields : Prop := 1 ≤ o.tag ∧ 1 ≤ o.profile ∧ o.profile ≤ 32 ∧ ShaftText o.shaft
    let queued : Prop := ∃ q ∈ s.ord.queue, q.tag = o.tag
    let refused (st : Status) : Prop :=
      exec (.enqueueOrder p tag bs) s = .next (s.reply p tag .enqueueOrder bs st [])
    (¬ fields → refused .badValue)
    ∧ (fields → 4 ≤ s.ord.queue.length → refused .queueFull)
    ∧ (fields → s.ord.queue.length < 4 → queued → refused .duplicateTag)
    ∧ (fields → s.ord.queue.length < 4 → ¬ queued →
      (slot.state = .writing → refused .busy)
      ∧ ((slot.state = .empty ∨ slot.state = .invalid) → refused .profileInvalid)
      ∧ (slot.state = .valid →
        let queue := s.ord.queue ++ [{ o with revision := slot.revision }]
        exec (.enqueueOrder p tag bs) s = .next
          ((notice .order (beBytes 2 o.tag ++ [0, byteOf queue.length, 0xFF])
            (reformLamps (s.onOrd fun d => { d with queue := queue }))).reply p tag .enqueueOrder bs .ok
              [byteOf queue.length])))

/-- CANCEL_ORDER: authority, frame length, then whether a queued order carries the tag; when it is taken that order is
removed, those behind it move up, LAMP_READY is re-formed and an ORDER notice is built (R164). The reply behind
the notice is the model's reading, log entry 48. -/
def Obligations.CancelRemovesOrder : Prop :=
  ∀ (p : Port) (tag : Byte) (s : State), tag ≠ 0 → s.serving p →
    (∀ bs : List Byte, bs.length ≤ 240 → s.lif.holder ≠ some p →
      exec (.cancelOrder p tag bs) s = .next (s.reply p tag .cancelOrder bs .notInControl []))
    ∧ (∀ bs : List Byte, bs.length ≤ 240 → s.lif.holder = some p → bs.length ≠ 2 →
      exec (.cancelOrder p tag bs) s = .next (s.reply p tag .cancelOrder bs .badLength []))
    ∧ ∀ hi lo : Byte, s.lif.holder = some p →
      let name := 256 * hi.toNat + lo.toNat
      let queue := s.ord.queue.filter fun q => q.tag != name
      ((∃ q ∈ s.ord.queue, q.tag = name) → exec (.cancelOrder p tag [hi, lo]) s = .next
        ((notice .order ([hi, lo] ++ [0, byteOf queue.length, 0xFF])
          (reformLamps (s.onOrd fun d => { d with queue := queue }))).reply p tag .cancelOrder [hi, lo] .ok
            [byteOf queue.length]))
      ∧ ((∀ q ∈ s.ord.queue, q.tag ≠ name) →
        exec (.cancelOrder p tag [hi, lo]) s = .next (s.reply p tag .cancelOrder [hi, lo] .noSuchOrder []))

/-- LOAD_PATCH by the conditions of R170 in their order, CLEAR_PATCH by those of R171: a refused one changes nothing;
LOAD_PATCH taken stores the replacement vertex as received and enables the patch slot; CLEAR_PATCH taken empties one
slot or all (R170, R171). -/
def Obligations.PatchSlotsLoadAndClear : Prop :=
  ∀ (p : Port) (tag : Byte) (s : State), tag ≠ 0 → s.serving p → s.lif.holder = some p →
    (∀ (bs : List Byte) (n : Nat) (q : Patch), bs.length = 19 → field bs 0 1 = n → readPatch bs = q →
      let slot := s.pst.slot q.profile
      let named : Prop := 1 ≤ n ∧ n ≤ 4 ∧ 1 ≤ q.profile ∧ q.profile ≤ 32
      let other : Prop := ∃ k r, k + 1 ≠ n ∧ s.ord.patches[k]? = some (some r) ∧ r.profile = q.profile
        ∧ r.vertex = q.vertex
      let refused (st : Status) : Prop := exec (.loadPatch p tag bs) s = .next (s.reply p tag .loadPatch bs st [])
      (¬ named → refused .badValue)
      ∧ (named → s.scanRunning = true → refused .busy)
      ∧ (named → s.scanRunning = false → slot.state ≠ .valid → refused .profileInvalid)
      ∧ (named → s.scanRunning = false → slot.state = .valid → slot.profile.vertices.length ≤ q.vertex →
        refused .badValue)
      ∧ (named → s.scanRunning = false → slot.state = .valid → q.vertex < slot.profile.vertices.length →
        (other → refused .patchConflict)
        ∧ (¬ other → exec (.loadPatch p tag bs) s = .next ((s.onOrd fun d =>
          { d with patches := d.patches.set (n - 1) (some q) }).reply p tag .loadPatch bs .ok []))))
    ∧ ∀ n : Byte,
      let refused (st : Status) : Prop := exec (.clearPatch p tag [n]) s = .next (s.reply p tag .clearPatch [n] st [])
      (4 < n.toNat → refused .badValue)
      ∧ (n.toNat ≤ 4 → s.scanRunning = true → refused .busy)
      ∧ (n.toNat ≤ 4 → s.scanRunning = false → exec (.clearPatch p tag [n]) s = .next ((s.onOrd fun d =>
        { d with patches := if n = 0 then [none, none, none, none] else d.patches.set (n.toNat - 1) none }).reply p tag
          .clearPatch [n] .ok []))

/-- TRIM_ADJUST: authority, then the scan state DWELL or SCAN; when it is taken the requested scale clamped to 800 to 1200
becomes the pending scale, replacing any other, and the reply carries it; the active scale is kept (R28). -/
def Obligations.TrimAdjustSetsPendingScale : Prop :=
  ∀ (p : Port) (tag hi lo : Byte) (s : State), tag ≠ 0 → s.serving p →
    let scale := max 800 (min 1200 (256 * hi.toNat + lo.toNat))
    (s.lif.holder ≠ some p →
      exec (.trimAdjust p tag [hi, lo]) s = .next (s.reply p tag .trimAdjust [hi, lo] .notInControl []))
    ∧ (s.lif.holder = some p → s.seq.scanState ≠ .dwell → s.seq.scanState ≠ .scan →
      exec (.trimAdjust p tag [hi, lo]) s = .next (s.reply p tag .trimAdjust [hi, lo] .wrongState []))
    ∧ (s.lif.holder = some p → (s.seq.scanState = .dwell ∨ s.seq.scanState = .scan) →
      exec (.trimAdjust p tag [hi, lo]) s = .next ((s.onSpg fun g => { g with pendingScale := some scale }).reply p tag
        .trimAdjust [hi, lo] .ok (beBytes 2 scale)))

/-- CLEAR_FAULTS: authority, frame length, then no scan running; when it is taken the first-fault record and every count
are emptied, the lamps re-formed and a FAULT notice built; the reset cause and the rest are kept (R154). The reply
behind the notice is the model's reading, log entry 48. -/
def Obligations.ClearFaultsEmptiesRecord : Prop :=
  ∀ (p : Port) (tag : Byte) (bs : List Byte) (s : State), tag ≠ 0 → s.serving p → bs.length ≤ 240 →
    (s.lif.holder ≠ some p →
      exec (.clearFaults p tag bs) s = .next (s.reply p tag .clearFaults bs .notInControl []))
    ∧ (s.lif.holder = some p → bs.length ≠ 0 →
      exec (.clearFaults p tag bs) s = .next (s.reply p tag .clearFaults bs .badLength []))
    ∧ (s.lif.holder = some p → bs.length = 0 → s.seq.scanState ≠ .idle → s.seq.scanState ≠ .halted →
      exec (.clearFaults p tag bs) s = .next (s.reply p tag .clearFaults bs .wrongState []))
    ∧ (s.lif.holder = some p → bs.length = 0 → (s.seq.scanState = .idle ∨ s.seq.scanState = .halted) →
      exec (.clearFaults p tag bs) s = .next
        ((notice .fault ([0, 0, byteOf s.seq.scanState.code] ++ beBytes 4 s.seq.clock ++ [0, 0])
          (reformLamps (s.onPfm fun f => { f with firstFault := none, counts := List.replicate 19 0 }))).reply p tag
            .clearFaults bs .ok []))

/-- ACKNOWLEDGE in HALTED: IDLE, with its STATE notice, where the converter is OFF, every circuit CLOSED and AXC STOPPED,
else BUSY; in any other state WRONG_STATE (R43, R55). -/
def Obligations.AcknowledgeNeedsPlantAtRest : Prop :=
  ∀ (p : Port) (tag : Byte) (s : State), tag ≠ 0 → s.serving p → s.lif.holder = some p →
    (s.seq.scanState = .halted → s.cnv.state = .off → (∀ c, (s.qch.circuit c).state = .closed) →
      s.axc.travel = .stopped → s.axc.spindleSpeed = 0 →
      ∃ t, exec (.acknowledge p tag []) s = .next (t.reply p tag .acknowledge [] .ok [])
        ∧ ChangesOnly [.seq, .lif, .pfm, .qch] s t ∧ t.seq = { s.seq with scanState := .idle }
        ∧ StateMove .idle .halted none s t ∧ t.pfm.firstFault = s.pfm.firstFault ∧ t.pfm.counts = s.pfm.counts
        ∧ t.pfm.permits = s.pfm.permits ∧ t.pfm.lampReady = t.lampReadyNow
        ∧ ∀ c, (t.qch.circuit c).output = false ∧ (t.qch.circuit c).demand = false)
    ∧ (s.seq.scanState = .halted →
      (s.cnv.state ≠ .off ∨ (∃ c, (s.qch.circuit c).state ≠ .closed) ∨ s.axc.travel ≠ .stopped
        ∨ s.axc.spindleSpeed ≠ 0) →
      exec (.acknowledge p tag []) s = .next (s.reply p tag .acknowledge [] .busy []))
    ∧ (s.seq.scanState ≠ .halted →
      exec (.acknowledge p tag []) s = .next (s.reply p tag .acknowledge [] .wrongState []))

/-- BEGIN_PROFILE takes its header into the staging buffer and sets the supplied count to 0; PROFILE_VERTICES writes its
vertices and raises the supplied count to the end of the run; a first index above the supplied count, and a run past the
96th vertex, are refused and change nothing (R9, R10). -/
def Obligations.StagedUploadFillsBuffer : Prop :=
  ∀ (p : Port) (tag : Byte) (bs : List Byte) (s : State), tag ≠ 0 → s.serving p → s.lif.holder = some p →
    (bs.length = 51 → exec (.beginProfile p tag bs) s = .next ((s.onPst fun q =>
        { q with stagedHeader := some (Header.read bs), supplied := 0 }).reply p tag .beginProfile bs .ok []))
    ∧ (∀ (first count : Byte) (rest : List Byte), bs = first :: count :: rest → s.pst.stagedHeader.isSome →
      1 ≤ count.toNat → count.toNat ≤ 12 → rest.length = 19 * count.toNat →
      let refused : Prop :=
        exec (.profileVertices p tag bs) s = .next (s.reply p tag .profileVertices bs .badValue [])
      (s.pst.supplied < first.toNat → refused)
      ∧ (first.toNat ≤ s.pst.supplied → 96 < first.toNat + count.toNat → refused)
      ∧ (first.toNat ≤ s.pst.supplied → first.toNat + count.toNat ≤ 96 → s.pst.stagedVertices.length = 96 →
        ∃ t, exec (.profileVertices p tag bs) s = .next (t.reply p tag .profileVertices bs .ok
            [byteOf (max s.pst.supplied (first.toNat + count.toNat))])
          ∧ ChangesOnly [.pst] s t
          ∧ t.pst = { s.pst with
              supplied := max s.pst.supplied (first.toNat + count.toNat), stagedVertices := t.pst.stagedVertices }
          ∧ t.pst.stagedVertices.length = 96
          ∧ ∀ i, t.pst.stagedVertices[i]? =
              if first.toNat ≤ i ∧ i < first.toNat + count.toNat then some (Vertex.read rest (19 * (i - first.toNat)))
              else s.pst.stagedVertices[i]?))

/-- COMMIT_PROFILE, ERASE_PROFILE and WRITE_CONFIG by the conditions of R11, R13 and R18 in their order, a refused one
changing nothing; accepted, the channel is busy with the target and the copy is taken; a slot becomes WRITING, the
record's stored copy is marked, the record in force is kept; erasing an EMPTY slot is answered OK and changes nothing; a
profile or a record that fails its check is refused with what failed (R8, R11, R13, R18). That a slot keeps its content
and CRC under the WRITING mark is the model's choice, log entry 10. -/
def Obligations.StoreWriteBeginsAtAcceptance : Prop :=
  ∀ (p : Port) (tag : Byte) (s : State), tag ≠ 0 → s.serving p → s.lif.holder = some p →
    (∀ n count : Byte,
      let commit (st : Status) (content : List Byte) : Prop :=
        exec (.commitProfile p tag [n, count]) s = .next (s.reply p tag .commitProfile [n, count] st content)
      let erase (st : Status) : Prop :=
        exec (.eraseProfile p tag [n]) s = .next (s.reply p tag .eraseProfile [n] st [])
      (s.pfm.selector = .auto → commit .selector [] ∧ erase .selector)
      ∧ (s.pfm.selector ≠ .auto → (n.toNat = 0 ∨ 32 < n.toNat) → commit .badValue [] ∧ erase .badValue)
      ∧ (s.pfm.selector ≠ .auto → 1 ≤ n.toNat → n.toNat ≤ 32 →
        (s.pst.stagedHeader = none → commit .wrongState [])
        ∧ (∀ h, s.pst.stagedHeader = some h →
          let staged : Profile := ⟨h, s.pst.stagedVertices.take count.toNat⟩
          (s.pst.supplied < count.toNat → commit .badValue [])
          ∧ (count.toNat ≤ s.pst.supplied → (s.pst.channel.isSome ∨ s.boundBy n.toNat) → commit .busy [])
          ∧ (count.toNat ≤ s.pst.supplied → s.pst.channel = none → ¬ s.boundBy n.toNat →
            (∀ code i, profileCheck s.config staged = some (code, i) →
              commit .profileInvalid [byteOf code.code, byteOf i])
            ∧ (profileCheck s.config staged = none →
              exec (.commitProfile p tag [n, count]) s = .next ((s.onPst fun q =>
                { q with
                  slots := q.slots.set (n.toNat - 1) { q.slot n.toNat with state := .writing }
                  channel := some (.commit n.toNat staged) }).reply p tag .commitProfile [n, count] .ok []))))
        ∧ ((s.pst.channel.isSome ∨ s.boundBy n.toNat) → erase .busy)
        ∧ (s.pst.channel = none → ¬ s.boundBy n.toNat →
          ((s.pst.slot n.toNat).state = .empty → erase .ok)
          ∧ ((s.pst.slot n.toNat).state ≠ .empty →
            exec (.eraseProfile p tag [n]) s = .next ((s.onPst fun q =>
              { q with
                slots := q.slots.set (n.toNat - 1) { q.slot n.toNat with state := .writing }
                channel := some (.erase n.toNat) }).reply p tag .eraseProfile [n] .ok [])))))
    ∧ ∀ bs : List Byte, bs.length = 45 →
      let refused (st : Status) (content : List Byte) : Prop :=
        exec (.writeConfig p tag bs) s = .next (s.reply p tag .writeConfig bs st content)
      (s.pfm.selector = .auto → refused .selector [])
      ∧ (s.pfm.selector ≠ .auto →
        (∀ n, configCheck (ConfigRecord.read bs) = some n → refused .badValue [byteOf n])
        ∧ (configCheck (ConfigRecord.read bs) = none →
          ((s.pst.channel.isSome ∨ s.scanRunning = true) → refused .busy [])
          ∧ (s.pst.channel = none → s.scanRunning = false →
            exec (.writeConfig p tag bs) s = .next ((s.onPst fun q =>
              { q with
                channel := some (.config (ConfigRecord.read bs))
                stored := { q.stored with writeMark := true } }).reply p tag .writeConfig bs .ok []))))

/-- RESTART taken outside a scan with the write channel idle: restart pending, reply OK, nothing else; else refused
(R184). -/
def Obligations.RestartBecomesPending : Prop :=
  ∀ (p : Port) (tag : Byte) (s : State), tag ≠ 0 → s.serving p → s.lif.holder = some p →
    (s.scanRunning = false → s.pst.channel = none →
      exec (.restart p tag []) s = .next ((s.onLif fun l => { l with restartPending := true }).reply p tag .restart []
        .ok []))
    ∧ (s.scanRunning = true → exec (.restart p tag []) s = .next (s.reply p tag .restart [] .wrongState []))
    ∧ (s.scanRunning = false → s.pst.channel.isSome →
      exec (.restart p tag []) s = .next (s.reply p tag .restart [] .busy []))

/-! ### Starting and ending a scan -/

/-- A START taken, by request or by an edge of the START input: the head order removed and running, its profile bound
with the patches that name it, every block at its START values, the slice table created from it, the carriage sent to
x_0, the STATE and the ORDER notice built (R43, R165, R166, R168, R169, R41, R44, R69, R70, R173). The reply behind the
notices is the model's reading, log entry 48. -/
def Obligations.StartBindsHeadOrder : Prop :=
  ∀ (o : Order) (rest : List Order) (w : Working) (s : State), StartReady o w s → s.ord.queue = o :: rest →
    (∀ (p : Port) (tag hi lo : Byte), tag ≠ 0 → s.serving p → s.lif.holder = some p →
      (256 * hi.toNat + lo.toNat = 0 ∨ 256 * hi.toNat + lo.toNat = o.tag) →
      ∃ t, exec (.startScan p tag [hi, lo]) s = .next (t.reply p tag .startScan [hi, lo] .ok
          (beBytes 2 o.tag ++ [if s.pfm.selector = .setup then 1 else 0]))
        ∧ StartTaken o rest w s t)
    ∧ (s.startup = false → s.lif.restartPending = false → 5 ≤ s.ord.startStable → s.ord.startInput = true →
      s.ord.startLevel = false → o.lineStart = true →
      ∃ t, exec .startEdge s = .next t ∧ StartTaken o rest w s t ∧ t.ord.startLevel = true)

/-- A start that fails a condition of Table 9-2, by the first that fails: the reply to a START_SCAN, the reason of the ORDER
notice of an edge; a stale head order is removed, a candidate that fails is refused by where it fails, and nothing else
changes (R165, R166, R167, R168). The reply behind the notice of a stale order is the model's reading, log
entry 48. -/
def Obligations.StartRefusedByTable : Prop :=
  (∀ (p : Port) (tag hi lo : Byte) (s : State), tag ≠ 0 → s.serving p → s.lif.holder = some p →
    StartRefusals (256 * hi.toNat + lo.toNat) s
      (fun st content =>
        exec (.startScan p tag [hi, lo]) s = .next (s.reply p tag .startScan [hi, lo] st content))
      (fun o rest => exec (.startScan p tag [hi, lo]) s = .next
        ((notice .order (beBytes 2 o.tag ++ [byteOf Status.staleProfile.code, byteOf rest.length, 0xFF])
          (reformLamps (s.onOrd fun d => { d with queue := rest }))).reply p tag .startScan [hi, lo] .staleProfile [])))
    ∧ ∀ (o : Order) (rest : List Order) (s : State), s.startup = false → s.lif.restartPending = false →
      5 ≤ s.ord.startStable → s.ord.startInput = true → s.ord.startLevel = false → s.ord.queue = o :: rest →
      o.lineStart = true →
      let up := s.onOrd fun d => { d with startLevel := true, startStable := 0 }
      StartRefusals 0 s
        (fun st _ => exec .startEdge s = .next (notice .order
          (beBytes 2 o.tag ++ [byteOf st.code, byteOf (rest.length + 1), 0xFF]) up))
        (fun _ rest => exec .startEdge s = .next (notice .order
          (beBytes 2 o.tag ++ [byteOf Status.staleProfile.code, byteOf rest.length, 0xFF])
          (reformLamps (up.onOrd fun d => { d with queue := rest }))))

/-- A START taken with a circuit in MISMATCH, or with the limit switch OPEN toward which the approach would begin: the
order is bound and the scan halted by STOP at the same event, with the abort state APPROACH; VALVE_MISMATCH is counted
once for each such circuit and TRAVEL_LIMIT once, each report carrying APPROACH; no step is emitted; a FAULT notice goes
with each, and a STATE notice with each of the two moves (R43, R58, R97, R126, R150, R153, R169). Which of several
causes SEQ and which PFM takes first is left open, log entry 6; the reply behind the notices is the model's reading, log
entry 48. -/
def Obligations.StartFindsStandingFaults : Prop :=
  ∀ (o : Order) (rest : List Order) (w : Working) (s : State), StartAllowed o w s → s.ord.queue = o :: rest →
    s.pfm.counts.length = 19 →
    (mismatched s ≠ [] ∨ (approachBlocked w.profile.first s.axc).isSome) →
    let halts (t : State) : Prop :=
      t.seq.scanState = .halted ∧ t.seq.abortAction = some .stop ∧ t.seq.abortState = some .approach
        ∧ ((t.seq.abortCause = some .valveMismatch ∧ mismatched s ≠ [])
          ∨ (t.seq.abortCause = some .travelLimit ∧ (approachBlocked w.profile.first s.axc).isSome))
    let counts (t : State) : Prop :=
      (mismatched s ≠ [] →
          t.pfm.count .valveMismatch = min 255 (s.pfm.count .valveMismatch + (mismatched s).length))
        ∧ (mismatched s = [] → t.pfm.count .valveMismatch = s.pfm.count .valveMismatch)
        ∧ t.pfm.count .travelLimit =
          (if (approachBlocked w.profile.first s.axc).isSome then min 255 (s.pfm.count .travelLimit + 1)
            else s.pfm.count .travelLimit)
        ∧ (∃ r, t.pfm.firstFault = some r ∧ r.scanState = .approach ∧ r.orderTag = some o.tag
          ∧ ((∃ c ∈ mismatched s, r.kind = .valveMismatch ∧ r.item = .circuit c)
            ∨ ∃ x, approachBlocked w.profile.first s.axc = some x ∧ r.kind = .travelLimit ∧ r.item = .limitSwitch x))
    let bound (t : State) : Prop :=
      t.ord.queue = rest ∧ t.ord.running = some o ∧ t.ord.working = some w ∧ t.axc.cmdPos = s.axc.cmdPos
        ∧ t.axc.spindleCmd = 0 ∧ HeatEnded t ∧ (∀ c, (t.qch.circuit c).output = false)
        ∧ (∃ ns a b, Notified ns s t
          ∧ (payloads .fault ns).length
            = (mismatched s).length + (if (approachBlocked w.profile.first s.axc).isSome then 1 else 0)
          ∧ payloads .state ns = [a, b]
          ∧ StateNotice .approach .idle { t.seq with abortCause := none, abortAction := none, abortState := none } none a
          ∧ StateNotice .halted .approach t.seq (some .aborted) b)
        ∧ ∃ m, t.ord.summary = some m ∧ m.result = .aborted ∧ m.cause = t.seq.abortCause ∧ m.tag = o.tag
    (∀ (p : Port) (tag hi lo : Byte), tag ≠ 0 → s.serving p → s.lif.holder = some p →
      (256 * hi.toNat + lo.toNat = 0 ∨ 256 * hi.toNat + lo.toNat = o.tag) →
      ∃ t, exec (.startScan p tag [hi, lo]) s = .next (t.reply p tag .startScan [hi, lo] .ok
          (beBytes 2 o.tag ++ [if s.pfm.selector = .setup then 1 else 0]))
        ∧ halts t ∧ counts t ∧ bound t)
    ∧ (s.startup = false → s.lif.restartPending = false → 5 ≤ s.ord.startStable → s.ord.startInput = true →
      s.ord.startLevel = false → o.lineStart = true →
      ∃ t, exec .startEdge s = .next t ∧ halts t ∧ counts t ∧ bound t)

/-- ABORT_SCAN by the state it finds: the action of Tables 3-4 and 3-5 for HOST_ABORT, the abort record, heating ended;
the reply carries the state found and the action in force after it, and the moves have their STATE notices. An entry to
QUENCH_OUT with slices in transit begins draining, the carriage TRACKING upward at a hold speed of the greater of v_cmd
and 50 with its target and wait dropped, or at an OPEN upper switch raises TRAVEL_LIMIT and ends in FLOOD; from SOAK the
carriage goes on with its stop; with none in transit it begins holding (R43, R58 to R60, R63, R65, R116, R126, R129).
That the reply in IDLE and HALTED shows the action an earlier abort left, that a STOP leaves no state timer, that no
move kind and target are held outside a move, and that the reply goes behind the notices, are the model's choices, log
entries 34, 28, 22 and 48. -/
def Obligations.AbortScanByStateFound : Prop :=
  ∀ (p : Port) (tag : Byte) (s : State), tag ≠ 0 → s.serving p →
    (¬ s.riseBlocked → ∃ t, exec (.abortScan p tag []) s = .next (t.reply p tag .abortScan [] .ok
        [byteOf s.seq.scanState.code, byteOf (AbortAction.code t.seq.abortAction)])
      ∧ (∃ ns, Notified ns s t ∧ payloads .fault ns = [] ∧ AbortAnnounced s.seq t.seq (payloads .state ns))
      ∧ t.pst = s.pst ∧ t.pfm.counts = s.pfm.counts ∧ t.pfm.firstFault = s.pfm.firstFault
      ∧ ((s.seq.scanState = .idle ∨ s.seq.scanState = .halted) → t = s)
      ∧ (s.seq.scanState = .flood → s.seq.kind = .production → t = s)
      ∧ ((s.seq.scanState = .approach ∨ s.seq.scanState = .ignite) →
        ActionTaken .stop s t ∧ RecordsCause .hostAbort .stop s.seq t.seq)
      ∧ ((s.seq.scanState = .dwell ∨ s.seq.scanState = .scan ∨ s.seq.scanState = .runout ∨ s.seq.scanState = .soak) →
        (s.seq.kind = .dry → ActionTaken .stop s t ∧ RecordsCause .hostAbort .stop s.seq t.seq)
        ∧ (s.seq.kind = .production → s.profile.header.policy = 1 →
          ActionTaken .flood s t ∧ RecordsCause .hostAbort .flood s.seq t.seq)
        ∧ (s.seq.kind = .production → s.profile.header.policy ≠ 1 →
          ActionTaken .quenchOut s t ∧ RecordsCause .hostAbort .quenchOut s.seq t.seq))
      ∧ (s.seq.kind = .production → s.profile.header.policy ≠ 1 →
        ((s.seq.scanState = .dwell ∨ s.seq.scanState = .scan ∨ s.seq.scanState = .runout) →
          ((s.slt.transit ≠ [] ∨ s.slt.underCoil.isSome) → (s.axc.vCmd = 0 ∨ s.axc.direction = .up) →
            t.seq.scanState = .quenchOut ∧ t.seq.phase = some .draining ∧ t.seq.timer = none
              ∧ t.seq.dwellVertex = none
              ∧ t.axc = { s.axc with
                  travel := .tracking, moveKind := none, target := none, direction := .up,
                  holdSpeed := some (max s.axc.vCmd 50), waiting := .notWaiting, waitTime := 0 })
          ∧ (s.slt.transit = [] → s.slt.underCoil = none → 0 < s.profile.header.soakTime →
            t.seq.scanState = .quenchOut ∧ t.seq.phase = some .holding
              ∧ t.seq.timer = some s.profile.header.soakTime
              ∧ t.axc.travel = .brakingTo ∧ t.axc.moveKind = some .stop ∧ t.axc.target = none
              ∧ t.axc.vCmd = s.axc.vCmd ∧ t.axc.cmdPos = s.axc.cmdPos))
        ∧ (s.seq.scanState = .soak → s.slt.transit = [] → s.slt.underCoil = none → 0 < s.profile.header.soakTime →
          t.seq.scanState = .quenchOut ∧ t.seq.phase = some .holding ∧ t.seq.timer = some s.profile.header.soakTime
            ∧ t.axc = { s.axc with rotation := .settling, rotationTimer := 0 }))
      ∧ (s.seq.scanState = .quenchOut → s.seq.kind = .production →
        ActionTaken .flood s t ∧ RecordsCause .hostAbort .flood s.seq t.seq))
    ∧ (s.riseBlocked → s.pfm.counts.length = 19 →
      ∃ t ns, exec (.abortScan p tag []) s = .next (t.reply p tag .abortScan [] .ok
          [byteOf s.seq.scanState.code, byteOf (AbortAction.code (some .flood))])
        ∧ Notified ns s t ∧ t.pst = s.pst
        ∧ TravelLimitFollows { s.seq with
            scanState := .quenchOut, abortCause := some .hostAbort, abortState := some s.seq.scanState } ns s t)

/-- A cause raised is taken by PFM, counted and captured where nothing is held with the scan state its source found, and
judged by SEQ by the rows of Tables 3-4 and 3-5: the action carried out and recorded, or nothing changed; one FAULT
notice is built, and the STATE notices of SEQ's moves (R43, R57, R63, R64, R108, R147, R150 to R153). STALL and
TRAVEL_LIMIT take the carriage in a quick stop, and a STALL at the end of a move leaves it waiting for rest, its target
dropped, with no further timing (R115, R123). The events stand apart from the updates at whose threshold they are due,
two of them marked by 151 and 201, HALTED holds no state timer, a stop directed in a wait begins it anew, and the wait
left by a STALL at the end of a move keeps its time: the model's choices, log entries 3, 4, 28 and 20. -/
def Obligations.CauseIsTakenAndJudged : Prop :=
  ∀ (c : Instr) (k : Cause) (item : CircuitItem) (s : State), Raises c k item s → s.pfm.counts.length = 19 →
    ¬ s.riseBlocked → ∃ t ns, exec c s = .next t
      ∧ t.startup = s.startup ∧ t.pending = s.pending ∧ t.pst = s.pst ∧ Notified ns s t
      ∧ (∀ n ∈ ns, n.1 = .fault ∨ n.1 = .state ∨ n.1 = .slice)
      ∧ (∃ f, payloads .fault ns = [f]
        ∧ FaultNotice k item s.seq.scanState s.seq.clock (t.pfm.count k) s.pfm.firstFault.isNone f)
      ∧ AbortAnnounced s.seq t.seq (payloads .state ns)
      ∧ t.ord.queue = s.ord.queue ∧ t.pfm.selector = s.pfm.selector
      ∧ (∀ x, permitGet t.pfm.permits x =
        if c = .permitChange x then permitGet s.pfm.permitInputs x else permitGet s.pfm.permits x)
      ∧ t.pfm.count k = min 255 (s.pfm.count k + 1) ∧ (∀ j, j ≠ k → t.pfm.count j = s.pfm.count j)
      ∧ (∀ r, s.pfm.firstFault = some r → t.pfm.firstFault = some r)
      ∧ (s.pfm.firstFault = none → ∃ r, t.pfm.firstFault = some r ∧ r.kind = k ∧ r.item = item
        ∧ r.scanState = s.seq.scanState ∧ r.position = s.axc.x ∧ r.clock = s.seq.clock)
      ∧ Judged k s t
      ∧ ((c = .stall ∨ k = .travelLimit) → s.axc.travel ≠ .stopped →
        t.axc.travel = .brakingTo ∧ t.axc.moveKind = some .stop ∧ t.axc.target = none ∧ t.axc.vCmd = 0
          ∧ t.axc.waiting = .timed ∧ t.axc.waitTime = 0 ∧ t.axc.cmdPos = s.axc.cmdPos)
      ∧ (c = .endOfMoveStall →
        t.axc.travel = .brakingTo ∧ t.axc.moveKind = some .stop ∧ t.axc.target = none ∧ t.axc.vCmd = 0
          ∧ t.axc.waiting = .untimed ∧ t.axc.waitTime = s.axc.waitTime ∧ t.axc.cmdPos = s.axc.cmdPos)

/-- What an abort does to the slice table: QUENCH_OUT cuts the HEATING slice from heat and puts it last in the transit
list, the others keep on; FLOOD and STOP make every unfinished slice DONE with their flag and empty the lists; FLOOD
leaves the marking UNCONFIRMED with the slices it marked, and a STOP takes FLOOD_QUENCHED from the slices of an
UNCONFIRMED marking; a SLICE notice is built for each slice made DONE and each whose flags a STOP changes (R59, R61,
R62, R85, R89 to R92). That a slice still HEATING in RUNOUT is cut like any other, where R59 and R89 say there is none,
the mark of 151 at which the STOP clause finds VALVE_MISMATCH due, and the reply behind the notices are the model's
choices, log entries 43, 4 and 48. -/
def Obligations.AbortMarksSlices : Prop :=
  ∀ s : State, s.seq.kind = .production →
    (∀ (p : Port) (tag : Byte), tag ≠ 0 → s.serving p → ¬ s.riseBlocked → s.profile.header.policy ≠ 1 →
      (s.seq.scanState = .dwell ∨ s.seq.scanState = .scan ∨ s.seq.scanState = .runout ∨ s.seq.scanState = .soak) →
      ∃ (t : State) (b : List Byte), exec (.abortScan p tag []) s = .next (t.reply p tag .abortScan [] .ok b)
        ∧ (s.slt.underCoil = none → t.slt = s.slt)
        ∧ ∀ k r, s.slt.underCoil = some k → s.slt.table[k]? = some r → r.state = .heating →
          t.seq.phase = some .draining ∧ t.slt = { s.slt with
            transit := s.slt.transit ++ [k], underCoil := none
            table := s.slt.table.set k { r with
              state := .inTransit, leaveTime := some s.seq.clock, flags := setFlag r.flags .heatCut } })
    ∧ (∀ (p : Port) (tag : Byte), tag ≠ 0 → s.serving p →
      ((s.profile.header.policy = 1
          ∧ (s.seq.scanState = .dwell ∨ s.seq.scanState = .scan ∨ s.seq.scanState = .runout ∨ s.seq.scanState = .soak))
        ∨ s.seq.scanState = .quenchOut) →
      ∃ (t : State) (b : List Byte), exec (.abortScan p tag []) s = .next (t.reply p tag .abortScan [] .ok b)
        ∧ t.slt = { s.slt with
            table := t.slt.table, transit := [], underCoil := none, atQuench := none, floodStatus := .unconfirmed
            flooded := t.slt.flooded }
        ∧ (∃ ns, Notified ns s t
          ∧ SlicesAnnounced (· ∈ t.slt.flooded) s.seq.clock t.slt.table (payloads .slice ns))
        ∧ (∀ i : Nat, i ∈ t.slt.flooded ↔ ∃ r : SliceRec, s.slt.table[i]? = some r ∧ r.unfinished)
        ∧ t.slt.table.length = s.slt.table.length
        ∧ ∀ (i : Nat) (r : SliceRec), s.slt.table[i]? = some r → ∃ r' : SliceRec, t.slt.table[i]? = some r'
          ∧ (r.unfinished → FinishedBy .floodQuenched s.seq.clock r r') ∧ (¬ r.unfinished → r' = r))
    ∧ ∀ c, (s.seq.scanState = .dwell ∨ s.seq.scanState = .scan ∨ s.seq.scanState = .runout ∨ s.seq.scanState = .soak
        ∨ s.seq.scanState = .quenchOut ∨ s.seq.scanState = .flood) →
      (s.qch.circuit c).state ≠ .mismatch → 151 ≤ (s.qch.circuit c).disagree →
      ∃ t, exec (.valveMismatch c) s = .next t
        ∧ t.slt = { s.slt with table := t.slt.table, transit := [], underCoil := none, atQuench := none }
        ∧ (∃ ns, Notified ns s t ∧ SlicesAnnounced (fun i => (∃ r : SliceRec, s.slt.table[i]? = some r ∧ r.unfinished)
          ∨ (s.slt.floodStatus = .unconfirmed ∧ i ∈ s.slt.flooded)) s.seq.clock t.slt.table (payloads .slice ns))
        ∧ t.slt.table.length = s.slt.table.length
        ∧ ∀ (i : Nat) (r : SliceRec), s.slt.table[i]? = some r → ∃ r' : SliceRec, t.slt.table[i]? = some r'
          ∧ (r.unfinished → (s.slt.floodStatus ≠ .unconfirmed ∨ i ∉ s.slt.flooded) →
            FinishedBy .unquenched s.seq.clock r r')
          ∧ (¬ r.unfinished → s.slt.floodStatus = .unconfirmed → i ∈ s.slt.flooded →
            r' = { r with flags := setFlag (clearFlag r.flags .floodQuenched) .unquenched })
          ∧ (¬ r.unfinished → (s.slt.floodStatus ≠ .unconfirmed ∨ i ∉ s.slt.flooded) → r' = r)

/-- The sequencer's timers at their expiry: DWELL to SCAN, SOAK through COMPLETE to IDLE with the summary and the result
indicator, the holding of QUENCH_OUT and FLOOD to HALTED with an aborted result and, where the carriage is not STOPPED,
a quick stop; a dwell that expires under an OPEN upper switch raises TRAVEL_LIMIT in SCAN; each change of scan state has
its STATE notice, two at the end of SOAK (R43, R48, R52, R53, R54, R60, R61, R116, R121, R126, R172). No state timer in
IDLE, SCAN and HALTED, no target in TRACKING, and that a quick stop begins a wait already under way anew, are the
model's choices, log entries 28, 22 and 20. -/
def Obligations.StateTimersExpire : Prop :=
  ∀ s : State, s.seq.timer = some 0 →
    (s.seq.scanState = .dwell → (s.axc.upperOpen = false ∨ s.axc.vCmd ≠ 0) → ∃ t, exec .dwellExpiry s = .next t
      ∧ ChangesOnly [.seq, .spg, .axc, .qch, .pfm, .lif] s t ∧ StateMove .scan .dwell none s t
      ∧ t.seq = { s.seq with scanState := .scan, dwellVertex := none, timer := none }
      ∧ t.spg = { s.spg with plannedSpeed := none } ∧ t.axc.travel = .tracking ∧ t.axc.target = none
      ∧ t.axc.vCmd = s.axc.vCmd ∧ t.axc.cmdPos = s.axc.cmdPos ∧ t.pfm.counts = s.pfm.counts)
    ∧ (s.seq.scanState = .dwell → s.axc.upperOpen = true → s.axc.vCmd = 0 → s.pfm.counts.length = 19 →
      ∃ t ns, exec .dwellExpiry s = .next t ∧ t.pst = s.pst ∧ Notified ns s t
        ∧ TravelLimitFollows { s.seq with scanState := .scan } ns s t)
    ∧ (s.seq.scanState = .soak → ∃ t m c d, exec .soakExpiry s = .next t
      ∧ ChangesOnly [.seq, .axc, .qch, .ord, .pfm, .lif] s t ∧ Notified [(.state, c), (.state, d)] s t
      ∧ StateNotice .complete .soak t.seq (some m.result) c ∧ StateNotice .idle .complete t.seq none d
      ∧ t.seq = { s.seq with scanState := .idle, dwellVertex := none, timer := none, phase := none }
      ∧ t.ord = { s.ord with summary := some m } ∧ m.kind = s.seq.kind ∧ m.time = s.seq.clock
      ∧ m.energy = s.slt.totalEnergy ∧ m.cause = none
      ∧ (s.seq.kind = .dry → m.result = .dry)
      ∧ (s.seq.kind = .production → (∀ r ∈ s.slt.table, ∀ f, hasFlag r.flags f = false) → m.result = .good)
      ∧ (s.seq.kind = .production → (∃ r ∈ s.slt.table, ∃ f, hasFlag r.flags f = true) → m.result = .reject)
      ∧ t.pfm.resultGood = (s.pfm.resultGood || m.result == .good)
      ∧ t.pfm.resultReject = (s.pfm.resultReject || m.result == .reject)
      ∧ t.axc.spindleCmd = 0 ∧ t.axc.rotation = .off ∧ (∀ c, (t.qch.circuit c).output = false))
    ∧ (((s.seq.scanState = .quenchOut ∧ s.seq.phase = some .holding) ∨ s.seq.scanState = .flood) →
      ∃ t m, exec (if s.seq.scanState = .flood then .floodTimerExpiry else .holdTimerExpiry) s = .next t
        ∧ t.seq = { s.seq with scanState := .halted, dwellVertex := none, timer := none, phase := none }
        ∧ t.ord = { s.ord with summary := some m } ∧ m.result = .aborted ∧ m.cause = s.seq.abortCause
        ∧ HeatEnded t ∧ t.axc.spindleCmd = 0 ∧ t.axc.rotation = .off ∧ (∀ c, (t.qch.circuit c).output = false)
        ∧ (s.axc.travel = .stopped → t.axc.travel = .stopped)
        ∧ (s.axc.travel ≠ .stopped → t.axc.travel = .brakingTo ∧ t.axc.moveKind = some .stop ∧ t.axc.target = none
          ∧ t.axc.vCmd = 0 ∧ t.axc.waiting = .timed ∧ t.axc.waitTime = 0)
        ∧ t.slt = s.slt ∧ t.pst = s.pst ∧ t.pfm.counts = s.pfm.counts
        ∧ StateMove .halted s.seq.scanState (some .aborted) s t)

/-! ### The store's completions -/

/-- A write completes: a verified commit or erase leaves its slot with its content, the next revision and a matching
CRC; a verified record comes into force; a failed write leaves an INVALID slot, or a record whose CRC does not match,
and STORE_WRITE is taken with its FAULT notice; in each case a STORE notice is built (R7, R12, R13, R18, R153). The
all-zero profile a verified erase leaves and the layout its CRC runs over are the model's choices, log entries 8 and 10.
-/
def Obligations.WriteCompletionLeavesTarget : Prop :=
  ∀ s : State, s.pst.slots.length = 32 → s.pfm.counts.length = 19 →
    (∀ n, 1 ≤ n → n ≤ 32 →
      let rev := if 65535 ≤ (s.pst.slot n).revision then 1 else (s.pst.slot n).revision + 1
      (∀ q, s.pst.channel = some (.commit n q) → ∃ t, exec (.commitComplete true) s = .next t
        ∧ ChangesOnly [.pst, .lif] s t ∧ (∃ b, Notified [(.store, b)] s t ∧ StoreNotice n false .valid rev b)
        ∧ t.pst = { s.pst with slots := s.pst.slots.set (n - 1) ⟨.valid, rev, q, slotCrc .valid rev q⟩, channel := none })
      ∧ (s.pst.channel = some (.erase n) → ∃ t, exec (.eraseComplete true) s = .next t
        ∧ ChangesOnly [.pst, .lif] s t ∧ (∃ b, Notified [(.store, b)] s t ∧ StoreNotice n false .empty rev b)
        ∧ t.pst = { s.pst with
            slots := s.pst.slots.set (n - 1) ⟨.empty, rev, Profile.none, slotCrc .empty rev Profile.none⟩
            channel := none })
      ∧ (∀ c, ((c = .commitComplete false ∧ ∃ q, s.pst.channel = some (.commit n q))
            ∨ (c = .eraseComplete false ∧ s.pst.channel = some (.erase n))) →
        ∃ t v, exec c s = .next t ∧ ChangesOnly [.pst, .pfm, .lif, .free] s t
          ∧ (∃ f b ns, Notified ns s t ∧ ns.Perm [(.fault, f), (.store, b)] ∧ StoreNotice n true .invalid rev b
            ∧ FaultNotice .storeWrite (.slot n) s.seq.scanState s.seq.clock (t.pfm.count .storeWrite)
              s.pfm.firstFault.isNone f)
          ∧ v.state = .invalid ∧ v.revision = rev
          ∧ t.pst = { s.pst with slots := s.pst.slots.set (n - 1) v, channel := none }
          ∧ t.pfm.count .storeWrite = min 255 (s.pfm.count .storeWrite + 1)
          ∧ (s.pfm.firstFault = none →
            ∃ r, t.pfm.firstFault = some r ∧ r.kind = .storeWrite ∧ r.item = .slot n)))
    ∧ (∀ c, s.pst.channel = some (.config c) →
      (∃ t, exec (.configWriteComplete true) s = .next t ∧ ChangesOnly [.pst, .lif] s t
        ∧ Notified [(.store, [0x21, 0, 0, 0, 0])] s t
        ∧ t.pst = { s.pst with
            channel := none, stored := ⟨true, false, c, configCrc c⟩, inForce := c, source := .stored })
      ∧ (∃ t, exec (.configWriteComplete false) s = .next t ∧ ChangesOnly [.pst, .pfm, .lif, .free] s t
        ∧ (∃ f ns, Notified ns s t ∧ ns.Perm [(.fault, f), (.store, [0x21, 1, 0, 0, 0])]
          ∧ FaultNotice .storeWrite .configRecord s.seq.scanState s.seq.clock (t.pfm.count .storeWrite)
            s.pfm.firstFault.isNone f)
        ∧ t.pst = { s.pst with channel := none, stored := t.pst.stored }
        ∧ t.pst.stored.crc ≠ configCrc t.pst.stored.record
        ∧ t.pfm.count .storeWrite = min 255 (s.pfm.count .storeWrite + 1)
        ∧ (s.pfm.firstFault = none →
          ∃ r, t.pfm.firstFault = some r ∧ r.kind = .storeWrite ∧ r.item = .configRecord)))

/-! ### The setpoint -/

/-- One setpoint update: in a production scan with every heat permit present, within an unchanged span, the command of
the pipeline is delivered with its code; without a heat permit, in a dry scan or past x_last it is 0; in other states
nothing happens. The trim hold ends in LOST (R20 to R37). The trim hold expiring in the update that would reach 200 ms,
the planned speed and trim kept at or above x_last, NO_TRIM but no CLAMPED reported while a heat permit is absent, and the
hold time outside HOLDING, which stays as it is, 200 in LOST, are the model's readings, log entries 17, 18, 19 and 42. -/
def Obligations.SetpointUpdateRunsPipeline : Prop :=
  ∀ s : State,
    (∀ (sp : ActiveSpan) (corr : Int) (g : SpgState),
      s.seq.kind = .production → s.spg.span = some sp →
      (s.seq.scanState = .dwell ∨ (s.seq.scanState = .scan ∧ s.high < s.profile.last
        ∧ (s.high < (s.profile.vertex (sp.index + 1)).position ∨ s.profile.lastIndex ≤ sp.index + 1))) →
      TrimRule s (s.profile.vertex sp.index).plan corr g →
      let plan : Plan := if s.seq.scanState = .dwell then ⟨sp.power, 0⟩ else planIn s.profile sp (max s.high sp.x)
      let alpha := (s.profile.vertex sp.index).plan.alpha
      let sched := halfUp (plan.power * s.spg.scale) 1000
      let ceiling := min s.profile.header.ceiling (min s.config.rating s.cnv.derate)
      let fb := (clampInt 0 ceiling (sched + corr)).toNat
      let blended := (alpha * fb + (255 - alpha) * sched + 127) / 255
      let clipped := max (min s.profile.header.floor ceiling) (min ceiling blended)
      let slewed := (min (s.spg.pPrev + clampInt (-(s.config.slew : Int)) s.config.slew
        ((clipped : Int) - s.spg.pPrev)) (ceiling : Int)).toNat
      let power := if s.pfm.heatPermits then slewed else 0
      ∃ t, exec .setpointUpdate s = .next t ∧ ChangesOnly [.spg, .cnv, .slt] s t
        ∧ t.spg = { g with
            pCmd := power, pPrev := power, dacCode := halfUp (power * 4095) s.config.rating
            plannedSpeed := some plan.speed }
        ∧ t.cnv = { s.cnv with
            deliveredPower := power, deliveredCode := halfUp (power * 4095) s.config.rating
            setpoint := if s.cnv.state = .running then halfUp (power * 4095) s.config.rating else s.cnv.setpoint }
        ∧ t.slt = { s.slt with table := t.slt.table }
        ∧ ∀ i, t.slt.table[i]? = if s.slt.underCoil = some i then
              (s.slt.table[i]?).map fun r => (r.flagIf (s.pfm.heatPermits && clipped != blended) .clamped).flagIf
                (g.trim == .lost && decide (0 < alpha)) .noTrim
            else s.slt.table[i]?)
    ∧ (s.seq.kind = .dry → (s.seq.scanState = .dwell ∨ s.seq.scanState = .scan) →
      ∃ t, exec .setpointUpdate s = .next t ∧ t.spg.pCmd = 0 ∧ t.spg.pPrev = 0 ∧ t.spg.dacCode = 0
        ∧ t.spg.trim = s.spg.trim ∧ t.spg.lastCorr = s.spg.lastCorr ∧ t.cnv.deliveredPower = 0 ∧ t.slt = s.slt)
    ∧ (s.seq.scanState = .scan → s.profile.last ≤ s.high →
      ∃ t, exec .setpointUpdate s = .next t ∧ ChangesOnly [.spg, .cnv] s t
        ∧ t.spg = { s.spg with pCmd := 0, pPrev := 0, dacCode := 0 } ∧ t.cnv.deliveredPower = 0)
    ∧ (s.seq.scanState ≠ .dwell → s.seq.scanState ≠ .scan → exec .setpointUpdate s = .next s)
    ∧ ((s.seq.scanState = .dwell ∨ s.seq.scanState = .scan) → s.spg.trim = .holding → s.cnv.tValid = false →
      199 ≤ s.spg.holdTime → exec .trimHoldExpiry s = .next (s.onSpg fun g =>
        { g with trim := .lost, holdTime := 200, lastCorr := 0 }))

/-- One setpoint update in SCAN that finds the high mark at the next vertex makes the next span active, with its slopes, its
spindle command and its planned speed (R22, R23, R24, R26, R127). A slice that begins HEATING takes its target from the plan
at its midpoint under the scale then active (R25, R83); the dwell part is added at each entry to DWELL, as
ConverterOnBeginsHeat and AxisBrakesAndStops state (R84). -/
def Obligations.SpanChangeAndTargets : Prop :=
  ∀ s : State,
    (∀ (sp : ActiveSpan), s.seq.scanState = .scan → s.spg.span = some sp → s.high < s.profile.last →
      (s.profile.vertex (sp.index + 1)).position ≤ s.high → sp.index + 1 < s.profile.lastIndex →
      let j := sp.index + 1
      let v := s.profile.vertex j
      ∃ t, exec .setpointUpdate s = .next t ∧ t.spg.span = some (spanAt s.profile j)
        ∧ t.spg.plannedSpeed = some (plannedSpeed v (s.profile.vertex (j + 1)) s.high)
        ∧ t.spg.scale = s.spg.scale ∧ t.seq = s.seq
        ∧ t.axc = { s.axc with
            spindleCmd := v.plan.spindle
            rotation := if s.axc.spindleCmd = v.plan.spindle then s.axc.rotation else .settling
            rotationTimer := if s.axc.spindleCmd = v.plan.spindle then s.axc.rotationTimer else 0 })
    ∧ ∀ (h k i : Nat) (r q : SliceRec), s.seq.scanState = .scan → s.axc.highMark = some h → s.slt.underCoil = some k →
      s.slt.table[k]? = some r → s.slt.table[k + 1]? = some q → k + 1 < s.slt.count → r.endPos ≤ h → h < q.endPos →
      QuenchWaits ((h : Int) - s.profile.header.quenchOffset) s.slt →
      (s.slt.atQuench = none → s.slt.transit = [] → (h : Int) - s.profile.header.quenchOffset < r.start) →
      s.profile.vertices.Pairwise (fun a b => a.position < b.position) → i + 1 < s.profile.vertices.length →
      let m := q.start + q.length / 2
      let v := s.profile.vertex i
      let w := s.profile.vertex (i + 1)
      v.position ≤ m → m < w.position →
      let scale := s.spg.pendingScale.getD s.spg.scale
      ∃ t q', exec .trackingStep s = .next t ∧ t.slt.table[k + 1]? = some q' ∧ q'.state = .heating
        ∧ q'.heatScale = some scale
        ∧ q'.eTgt = some (halfUp (halfUp (plannedPower v w m * scale) 1000 * 1000 * q.length) (plannedSpeed v w m))

/-! ### The axis -/

/-- JOG in SETUP with authority and its length, by the remaining conditions of R118 in their order, a refused one changing
nothing. Taken from a v_cmd of 0 the carriage is sent to the target, a target within 5 pu beginning its end-of-move wait at
once, and one that lies toward an OPEN switch as the commanded position has it, though not from x, raising TRAVEL_LIMIT with
a quick stop; a jog in motion runs on to a target ahead that it need not yet brake for, else it first brakes to 0 (R117,
R118, R123, R126). The reply behind the FAULT notice, and that the quick stop begins a wait already under way anew, are the
model's readings, log entries 48 and 20. -/
def Obligations.JogSendsCarriage : Prop :=
  ∀ (p : Port) (tag : Byte) (bs : List Byte) (n : Nat) (s : State), tag ≠ 0 → s.serving p → s.lif.holder = some p →
    s.pfm.selector = .setup → bs.length = 4 → field bs 0 4 = n →
    let refused (st : Status) : Prop := exec (.jog p tag bs) s = .next (s.reply p tag .jog bs st [])
    let ready : Prop := s.axc.travel = .stopped ∨ (s.axc.travel = .movingTo ∧ s.axc.moveKind = some .jog)
    let free : Prop := n = s.axc.x ∨ (s.axc.x < n ∧ s.axc.upperOpen = false) ∨ (n < s.axc.x ∧ s.axc.lowerOpen = false)
    (s.seq.scanState ≠ .idle → refused .wrongState)
    ∧ (s.seq.scanState = .idle → s.config.travelLength < n → refused .badValue)
    ∧ (s.seq.scanState = .idle → n ≤ s.config.travelLength → s.pfm.motionPermits = false → refused .permitMissing)
    ∧ (s.seq.scanState = .idle → n ≤ s.config.travelLength → s.pfm.motionPermits = true →
      (¬ ready → refused .busy)
      ∧ (ready → ¬ free → refused .wrongState)
      ∧ (ready → free →
        let toward : Direction := if s.axc.cmdPos < 1000 * n then .up else .down
        let move := { s.axc with travel := .movingTo, moveKind := some .jog, target := some n }
        (s.axc.vCmd = 0 → approachBlocked n s.axc = none →
          exec (.jog p tag bs) s = .next ((s.onAxc fun _ =>
            if absDiff (1000 * n) s.axc.cmdPos ≤ 5000 then
              { move with movePhase := .running, waiting := .timed, waitTime := 0 }
            else
              { move with movePhase := .running, waiting := .notWaiting, waitTime := 0, direction := toward }).reply p
                tag .jog bs .ok []))
        ∧ (∀ w, approachBlocked n s.axc = some w → s.pfm.counts.length = 19 →
          ∃ t, exec (.jog p tag bs) s = .next (t.reply p tag .jog bs .ok [])
            ∧ ChangesOnly [.axc, .pfm, .lif, .free] s t
            ∧ (∃ f, Notified [(.fault, f)] s t ∧ FaultNotice .travelLimit (.limitSwitch w) .idle s.seq.clock
              (t.pfm.count .travelLimit) s.pfm.firstFault.isNone f)
            ∧ t.axc = { s.axc with
                travel := .brakingTo, moveKind := some .stop, target := none, movePhase := .running, waiting := .timed
                waitTime := 0, direction := toward }
            ∧ t.pfm.count .travelLimit = min 255 (s.pfm.count .travelLimit + 1)
            ∧ (s.pfm.firstFault = none → ∃ r, t.pfm.firstFault = some r ∧ r.kind = .travelLimit
              ∧ r.item = .limitSwitch w ∧ r.scanState = .idle))
        ∧ (s.axc.vCmd ≠ 0 →
          let v := s.axc.vCmd
          let a := s.config.accel
          let ahead : Prop := if s.axc.direction = .up then s.axc.cmdPos < 1000 * n else 1000 * n < s.axc.cmdPos
          let runsOn : Prop := ahead ∧ v * v + 2 * a * v < 2 * a * absDiff (1000 * n) s.axc.cmdPos
          ∃ phase, (runsOn → phase = .running) ∧ (¬ runsOn → phase = .reversing)
            ∧ exec (.jog p tag bs) s = .next ((s.onAxc fun _ =>
              { move with movePhase := phase, waiting := .notWaiting, waitTime := 0 }).reply p tag .jog bs .ok []))))

/-- One axis update takes the encoder, the high mark, the rest count and the switch inputs; a JOG or APPROACH under way,
upward or downward, speeds up or brakes by at most A; within 5 pu of its target at 50 pu/s or less, or past it, its
end-of-move wait begins at v_cmd 0; one that must turn brakes by A down to 0 with no floor and there begins its motion
toward the target, which sets the direction, begins the wait within 5 pu, or raises TRAVEL_LIMIT with a quick stop where
the switch that way is OPEN; a SCAN follows the planned speed while no dwell vertex ahead asks for braking, RUNOUT and
the draining of QUENCH_OUT the hold speed, and the commanded position advances by v_cmd; the update at which the high
mark is first at or above x_last ends SCAN in RUNOUT with heating ended, the carriage TRACKING at a hold speed of the
greater of v_cmd and 50; a switch that becomes CLOSED, or changes while STOPPED, only changes its filtered state (R21,
R29, R43, R50, R114 to R117, R119, R120, R122, R123, R126, R133). That a turn begins its new motion in the update in
which v_cmd reaches 0, the stop of the commanded position at 250 000 pu, the switches timed in this row, their time
stopping at 5 ms, the last-vertex report ahead of the travel checks, no state timer and dwell vertex in RUNOUT and
HALTED, and no move kind and target in TRACKING are the model's choices, log entries 21, 23, 5, 3, 47, 28 and 22. -/
def Obligations.AxisUpdateReadsAndMoves : Prop :=
  ∀ (e : Nat) (up low : Bool) (s : State), s.startup = false → e ≤ 250000 →
    (∃ t, exec (.axisUpdate e up low) s = .next t ∧ t.axc.x = e ∧ t.axc.upperInput = up ∧ t.axc.lowerInput = low
      ∧ t.axc.upperStable = (if up = s.axc.upperOpen then 0 else min 5 (s.axc.upperStable + 1))
      ∧ t.axc.lowerStable = (if low = s.axc.lowerOpen then 0 else min 5 (s.axc.lowerStable + 1))
      ∧ t.axc.restCount = (if e = s.axc.x then min 10 (s.axc.restCount + 1) else 0)
      ∧ (s.seq.scanState.followsHigh = true → t.axc.highMark = s.axc.highMark.map (max e))
      ∧ t.startup = false ∧ t.pending = s.pending ∧ t.pst = s.pst ∧ s.lif.NoticesOnly t.lif
      ∧ t.ord.queue = s.ord.queue ∧ t.pfm.permits = s.pfm.permits ∧ t.pfm.selector = s.pfm.selector)
    ∧ (∀ n kind speed, s.axc.travel = .movingTo → s.axc.moveKind = some kind → s.axc.target = some n →
      ((kind = .jog ∧ s.seq.scanState = .idle ∧ speed = s.config.jogSpeed)
        ∨ (kind = .approach ∧ s.seq.scanState = .approach ∧ s.axc.posReport = false ∧ speed = s.config.approachSpeed)) →
      s.axc.waiting = .notWaiting → s.follows e →
      let v := s.axc.vCmd
      let a := s.config.accel
      let way := s.axc.direction
      let d := absDiff (1000 * n) s.axc.cmdPos
      let ends := ¬ aheadOf way s.axc.cmdPos (1000 * n) ∨ (d ≤ 5000 ∧ v ≤ 50)
      let brakes := s.axc.movePhase = .braking ∨ 2 * a * d ≤ v * v + 2 * a * v
      let v' := if brakes then brakedSpeed a v
        else if v ≤ speed then min speed (v + a) else max speed (v - a)
      let toward : Direction := if s.axc.cmdPos < 1000 * n then .up else .down
      let moves (w : Nat) (t : State) : Prop := ChangesOnly [.axc] s t ∧ t.axc.travel = .movingTo
        ∧ t.axc.moveKind = some kind ∧ t.axc.target = some n ∧ t.axc.vCmd = w
      (s.axc.movePhase ≠ .reversing →
        ∃ t, exec (.axisUpdate e up low) s = .next t ∧ t.axc.direction = way
          ∧ (¬ ends → moves v' t ∧ t.axc.cmdPos = movedTo way s.axc.cmdPos v' ∧ t.axc.waiting = .notWaiting
            ∧ (t.axc.movePhase = .braking ↔ brakes))
          ∧ (ends → moves 0 t ∧ t.axc.cmdPos = movedTo way s.axc.cmdPos 0 ∧ t.axc.waiting = .timed
            ∧ t.axc.waitTime = 0))
      ∧ (s.axc.movePhase = .reversing → a < v →
        ∃ t, exec (.axisUpdate e up low) s = .next t ∧ moves (v - a) t ∧ t.axc.direction = way
          ∧ t.axc.cmdPos = movedTo way s.axc.cmdPos (v - a) ∧ t.axc.movePhase = .reversing
          ∧ t.axc.waiting = .notWaiting)
      ∧ (s.axc.movePhase = .reversing → v ≤ a →
        (d ≤ 5000 →
          ∃ t, exec (.axisUpdate e up low) s = .next t ∧ moves 0 t ∧ t.axc.direction = way ∧ t.axc.waiting = .timed
            ∧ t.axc.waitTime = 0 ∧ t.axc.cmdPos = movedTo way s.axc.cmdPos 0)
        ∧ (5000 < d → s.axc.openToward toward = none →
          ∃ t, exec (.axisUpdate e up low) s = .next t ∧ moves 0 t ∧ t.axc.direction = toward
            ∧ t.axc.movePhase = .running ∧ t.axc.waiting = .notWaiting
            ∧ t.axc.cmdPos = movedTo toward s.axc.cmdPos 0)
        ∧ ∀ w, 5000 < d → s.axc.openToward toward = some w → s.pfm.counts.length = 19 →
          ∃ t ns, exec (.axisUpdate e up low) s = .next t ∧ Notified ns s t ∧ Judged .travelLimit s t
            ∧ AbortAnnounced s.seq t.seq (payloads .state ns)
            ∧ (∃ f, payloads .fault ns = [f] ∧ FaultNotice .travelLimit (.limitSwitch w) s.seq.scanState s.seq.clock
              (t.pfm.count .travelLimit) s.pfm.firstFault.isNone f)
            ∧ t.axc.travel = .brakingTo ∧ t.axc.moveKind = some .stop ∧ t.axc.target = none ∧ t.axc.vCmd = 0
            ∧ t.axc.waiting = .timed ∧ t.axc.waitTime = 0 ∧ t.axc.cmdPos = movedTo toward s.axc.cmdPos 0
            ∧ t.pfm.count .travelLimit = min 255 (s.pfm.count .travelLimit + 1)
            ∧ (∀ k, k ≠ .travelLimit → t.pfm.count k = s.pfm.count k)
            ∧ (s.pfm.firstFault = none → ∃ r, t.pfm.firstFault = some r ∧ r.kind = .travelLimit
              ∧ r.item = .limitSwitch w ∧ r.scanState = s.seq.scanState)))
    ∧ (∀ planned, s.seq.scanState = .scan → s.axc.travel = .tracking → s.axc.waiting = .notWaiting →
      (∀ j, s.axc.nextDwell = some j → s.axc.vCmd * s.axc.vCmd + 2 * s.config.accel * s.axc.vCmd
        < 2 * s.config.accel * (1000 * (s.profile.vertex j).position - s.axc.cmdPos)) →
      s.spg.plannedSpeed = some planned → s.axc.direction = .up → s.belowLast e → s.rises e → s.follows e → s.moves e →
      let v := s.axc.vCmd
      let a := s.config.accel
      let v' := if v ≤ planned then min planned (v + a) else max planned (v - a)
      ∃ t, exec (.axisUpdate e up low) s = .next t ∧ ChangesOnly [.axc] s t ∧ t.axc.vCmd = v'
        ∧ t.axc.cmdPos = min 250000000 (s.axc.cmdPos + v') ∧ t.axc.travel = .tracking)
    ∧ (∀ h, s.seq.scanState = .scan → s.axc.highMark = some h → s.profile.last ≤ max e h → s.follows e → s.rises e →
      (s.axc.vCmd < 50 ∨ s.axc.stallRef + 10 ≤ e ∨ s.axc.stallTimer + 1 < s.config.stallTime) →
      (s.axc.vCmd = 0 ∨ s.axc.direction = .up) →
      let v := s.axc.vCmd
      let v' := if v < 50 then min 50 (v + s.config.accel) else v
      ∃ t, exec (.axisUpdate e up low) s = .next t
        ∧ ChangesOnly [.seq, .spg, .cnv, .axc, .qch, .pfm, .lif] s t ∧ StateMove .runout .scan none s t
        ∧ t.seq = { s.seq with scanState := .runout, dwellVertex := none, timer := none }
        ∧ t.spg = { s.spg with pCmd := 0, pPrev := 0, dacCode := 0, pendingScale := none }
        ∧ t.cnv.deliveredPower = 0 ∧ t.cnv.deliveredCode = 0
        ∧ ((s.cnv.state = .running ∨ s.cnv.state = .starting) → t.cnv.state = .stopping ∧ t.cnv.enable = false
          ∧ t.cnv.setpoint = 0 ∧ t.cnv.stopTimer = some 1000)
        ∧ ((s.cnv.state = .off ∨ s.cnv.state = .stopping) → t.cnv.state = s.cnv.state
          ∧ t.cnv.stopTimer = s.cnv.stopTimer)
        ∧ t.axc.travel = .tracking ∧ t.axc.moveKind = none ∧ t.axc.target = none ∧ t.axc.waiting = .notWaiting
        ∧ t.axc.direction = .up ∧ t.axc.holdSpeed = some (max v 50) ∧ t.axc.vCmd = v'
        ∧ t.axc.cmdPos = min 250000000 (s.axc.cmdPos + v') ∧ t.axc.highMark = some (max e h)
        ∧ t.pfm.counts = s.pfm.counts ∧ t.pfm.firstFault = s.pfm.firstFault)
    ∧ (∀ held, (s.seq.scanState = .runout ∨ (s.seq.scanState = .quenchOut ∧ s.seq.phase = some .draining)) →
      s.axc.travel = .tracking → s.axc.waiting = .notWaiting → s.axc.direction = .up → s.axc.holdSpeed = some held →
      s.follows e → s.rises e → s.moves e →
      let v := s.axc.vCmd
      let a := s.config.accel
      let v' := if v ≤ held then min held (v + a) else max held (v - a)
      ∃ t, exec (.axisUpdate e up low) s = .next t ∧ ChangesOnly [.axc] s t ∧ t.axc.vCmd = v'
        ∧ t.axc.cmdPos = min 250000000 (s.axc.cmdPos + v') ∧ t.axc.travel = .tracking
        ∧ t.axc.holdSpeed = some held)
    ∧ (5 ≤ s.axc.upperStable → s.axc.upperInput ≠ s.axc.upperOpen →
      (s.axc.upperInput = false ∨ s.axc.travel = .stopped) →
      exec (.limitSwitchChange .upper) s = .next (s.onAxc fun a =>
        { a with upperOpen := a.upperInput, upperStable := 0 }))
    ∧ (5 ≤ s.axc.lowerStable → s.axc.lowerInput ≠ s.axc.lowerOpen →
      (s.axc.lowerInput = false ∨ s.axc.travel = .stopped) →
      exec (.limitSwitchChange .lower) s = .next (s.onAxc fun a =>
        { a with lowerOpen := a.lowerInput, lowerStable := 0 }))

/-- One axis update that raises no travel cause: braking onto a dwell vertex begins by the test of R120 and goes on to
the floor of 50; a controlled stop brakes to 0, upward or downward; an end-of-move wait is counted while the carriage is
not at rest, or not in position at its target; a stop ends STOPPED at x, and so does a jog in position at its target; a
dwell brake ends in DWELL with the dwell part on its slice. An approach ends in HOLDING at x_0; there, at the update
that finds the spindle in band, a production scan whose converter is OFF goes to IGNITE, and a dry scan enters heat in
DWELL or SCAN, or raises TRAVEL_LIMIT under an OPEN upper switch (R43, R45 to R49, R56, R84, R115, R117, R120, R121,
R122). The wait time stopping at the stall time, no move kind and target outside a move, no state timer and dwell vertex
in SCAN, the stop of the commanded position at 250 000 pu, and the place of the rotation timing and check in the update,
are the model's choices, log entries 3, 22, 28, 23, 25 and 26. -/
def Obligations.AxisBrakesAndStops : Prop :=
  ∀ (e : Nat) (up low : Bool) (s : State), s.startup = false → e ≤ 250000 → s.follows e → s.rises e → s.moves e →
    let atRest := s.axc.vCmd = 0 ∧ e = s.axc.x ∧ 9 ≤ s.axc.restCount
    let v := s.axc.vCmd
    let a := s.config.accel
    (∀ j, s.seq.scanState = .scan → s.belowLast e → s.axc.travel = .tracking → s.axc.waiting = .notWaiting →
      s.axc.nextDwell = some j → s.axc.direction = .up →
      let goal := 1000 * (s.profile.vertex j).position
      2 * a * (goal - s.axc.cmdPos) ≤ v * v + 2 * a * v →
      ∃ t, exec (.axisUpdate e up low) s = .next t ∧ ChangesOnly [.axc] s t ∧ t.axc.travel = .brakingTo
        ∧ t.axc.moveKind = some .dwell ∧ t.axc.target = some (s.profile.vertex j).position
        ∧ (s.axc.cmdPos < goal → (5000 < goal - s.axc.cmdPos ∨ 50 < v) → t.axc.vCmd = brakedSpeed a v
          ∧ t.axc.cmdPos = min 250000000 (s.axc.cmdPos + brakedSpeed a v) ∧ t.axc.waiting = .notWaiting)
        ∧ ((goal ≤ s.axc.cmdPos ∨ (goal - s.axc.cmdPos ≤ 5000 ∧ v ≤ 50)) → t.axc.vCmd = 0 ∧ t.axc.waiting = .timed
          ∧ t.axc.waitTime = 0))
    ∧ (∀ n, s.seq.scanState = .scan → s.belowLast e → s.axc.travel = .brakingTo → s.axc.waiting = .notWaiting →
      s.axc.target = some n → s.axc.direction = .up →
      ∃ t, exec (.axisUpdate e up low) s = .next t ∧ ChangesOnly [.axc] s t ∧ t.axc.travel = .brakingTo
        ∧ t.axc.target = some n
        ∧ (s.axc.cmdPos < 1000 * n → (5000 < 1000 * n - s.axc.cmdPos ∨ 50 < v) → t.axc.vCmd = brakedSpeed a v
          ∧ t.axc.cmdPos = min 250000000 (s.axc.cmdPos + brakedSpeed a v) ∧ t.axc.waiting = .notWaiting)
        ∧ ((1000 * n ≤ s.axc.cmdPos ∨ (1000 * n - s.axc.cmdPos ≤ 5000 ∧ v ≤ 50)) → t.axc.vCmd = 0
          ∧ t.axc.waiting = .timed ∧ t.axc.waitTime = 0))
    ∧ (s.seq.scanState ≠ .scan → s.seq.scanState ≠ .approach → s.axc.travel = .brakingTo → s.axc.waiting = .notWaiting →
      s.axc.target = none →
      ∃ t, exec (.axisUpdate e up low) s = .next t ∧ ChangesOnly [.axc] s t ∧ t.axc.travel = .brakingTo
        ∧ t.axc.direction = s.axc.direction
        ∧ (v ≤ a → t.axc.vCmd = 0 ∧ t.axc.waiting = .timed ∧ t.axc.waitTime = 0)
        ∧ (a < v → t.axc.vCmd = v - a ∧ t.axc.cmdPos = movedTo s.axc.direction s.axc.cmdPos (v - a)
          ∧ t.axc.waiting = .notWaiting))
    ∧ ((s.seq.scanState = .scan → s.belowLast e) →
      (s.seq.scanState = .approach → s.axc.travel ≠ .holding ∧ s.axc.posReport = false) → s.axc.waiting ≠ .notWaiting →
      ¬ (atRest ∧ ∀ n, s.axc.target = some n → absDiff e n ≤ 5) →
      ∃ t, exec (.axisUpdate e up low) s = .next t ∧ ChangesOnly [.axc] s t ∧ t.axc.travel = s.axc.travel
        ∧ t.axc.moveKind = s.axc.moveKind ∧ t.axc.target = s.axc.target ∧ t.axc.cmdPos = s.axc.cmdPos
        ∧ t.axc.vCmd = v ∧ t.axc.steps = 0 ∧ t.axc.waiting = s.axc.waiting
        ∧ t.axc.waitTime = (if s.axc.waiting = .timed then min s.config.stallTime (s.axc.waitTime + 1)
          else s.axc.waitTime))
    ∧ (s.seq.scanState ≠ .scan → s.seq.scanState ≠ .approach → s.axc.waiting ≠ .notWaiting →
      ((s.axc.moveKind = some .stop ∧ s.axc.target = none)
        ∨ ∃ n, s.axc.moveKind = some .jog ∧ s.axc.target = some n ∧ absDiff e n ≤ 5) → atRest →
      ∃ t, exec (.axisUpdate e up low) s = .next t ∧ ChangesOnly [.axc] s t ∧ t.axc.travel = .stopped
        ∧ t.axc.moveKind = none ∧ t.axc.target = none ∧ t.axc.waiting = .notWaiting ∧ t.axc.waitTime = 0
        ∧ t.axc.cmdPos = 1000 * e)
    ∧ (∀ j, s.seq.scanState = .scan → s.belowLast e → s.axc.waiting ≠ .notWaiting → s.axc.moveKind = some .dwell →
      s.axc.nextDwell = some j → s.axc.target = some (s.profile.vertex j).position → atRest →
      absDiff e (s.profile.vertex j).position ≤ 5 →
      let plan := (s.profile.vertex j).plan
      ∃ t, exec (.axisUpdate e up low) s = .next t ∧ StateMove .dwell .scan none s t ∧ t.pst = s.pst ∧ t.ord = s.ord
        ∧ t.cnv = s.cnv ∧ t.pfm.counts = s.pfm.counts
        ∧ t.seq = { s.seq with scanState := .dwell, dwellVertex := some j, timer := some plan.dwell }
        ∧ t.axc.travel = .holding ∧ t.axc.moveKind = none ∧ t.axc.target = none ∧ t.axc.waiting = .notWaiting
        ∧ t.axc.spindleCmd = plan.spindle
        ∧ NextDwell s.profile j t.axc.nextDwell
        ∧ t.spg = { s.spg with span := some (spanAt s.profile j) }
        ∧ t.slt = { s.slt with table := t.slt.table }
        ∧ ∀ i, t.slt.table[i]? = if s.slt.underCoil = some i then
              (s.slt.table[i]?).map fun r => { r with
                eTgt := some (r.eTgt.getD 0 + halfUp (plan.power * r.heatScale.getD 1000) 1000 * plan.dwell) }
            else s.slt.table[i]?)
    ∧ (s.seq.scanState = .approach → atRest → absDiff e s.profile.first ≤ 5 → 0 < s.config.pulsesPerRev →
      ((s.axc.waiting ≠ .notWaiting ∧ s.axc.moveKind = some .approach ∧ s.axc.target = some s.profile.first)
        ∨ (s.axc.waiting = .notWaiting ∧ s.axc.travel = .holding)) →
      let dwell := (s.profile.vertex 0).plan.dwell
      let ended (t : State) : Prop := t.axc.highMark = some s.profile.first ∧ NextDwell s.profile 0 t.axc.nextDwell
      ((¬ s.bandNext ∨ (s.seq.kind = .production ∧ s.cnv.state ≠ .off)) →
        ∃ t, exec (.axisUpdate e up low) s = .next t ∧ ChangesOnly [.axc] s t ∧ t.axc.travel = .holding
          ∧ t.axc.posReport = true ∧ (t.axc.bandReport = true ↔ s.bandNext))
      ∧ (s.bandNext → s.seq.kind = .production → s.cnv.state = .off →
        (s.cnv.convOn = false ∨ s.cnv.convFault = true) →
        ∃ t, exec (.axisUpdate e up low) s = .next t ∧ t.seq = { s.seq with scanState := .ignite } ∧ ended t
          ∧ t.axc.travel = .holding ∧ t.cnv.state = .starting
          ∧ t.cnv.enable = true ∧ t.cnv.setpoint = 0 ∧ t.cnv.startTimer = some 2000 ∧ t.spg = s.spg ∧ t.slt = s.slt
          ∧ t.ord = s.ord ∧ t.pst = s.pst ∧ t.pfm.counts = s.pfm.counts ∧ StateMove .ignite .approach none s t)
      ∧ (s.bandNext → s.seq.kind = .dry →
        ((s.axc.upperOpen = false ∨ 0 < dwell) →
          ∃ t, exec (.axisUpdate e up low) s = .next t ∧ HeatEntered s.profile.first s t ∧ ended t
            ∧ (0 < dwell → t.axc.travel = .holding) ∧ t.axc.vCmd = 0 ∧ t.cnv.state = s.cnv.state
            ∧ t.cnv.enable = s.cnv.enable)
        ∧ (s.axc.upperOpen = true → dwell = 0 → s.pfm.counts.length = 19 →
          ∃ t ns, exec (.axisUpdate e up low) s = .next t ∧ ended t ∧ t.pst = s.pst ∧ Notified ns s t
            ∧ TravelLimitFollows { s.seq with scanState := .scan } ns s t)))

/-- The supervision of one axis update, in every scan state and motion: FOLLOWING raised where it begins to hold outside
STOPPED, REVERSAL from the end of approach to COMPLETE or HALTED, and STALL with them where its timer reaches the stall
time, each counted, captured and announced, a moving carriage stopped at once, the cause judged by the rows of Tables
3-4 and 3-5; a condition that already held raises nothing; a STALL alone is left due with the motion left out; and the
moves of the rotation check by the measured speed that the update finds, falling between pulses (R43, R57, R123, R124,
R125, R128, R129, R150, R153). That a raising update advances no step, that its quick stop begins a wait already under
way anew, that STALL and ROTATION stand due until their own rows, the timers at the stall time, 5000 and 201, no state
timer in HALTED, and that the measured speed moves first in the update and the check follows the motion, are the model's
readings, log entries 24, 20, 3, 4, 28, 25 and 26; which of several causes is taken first is left open, log entry 6. The
update that reaches the last vertex in SCAN stands in AxisUpdateReadsAndMoves. -/
def Obligations.AxisSupervises : Prop :=
  ∀ (e : Nat) (up low : Bool) (s : State), s.startup = false → e ≤ 250000 →
    ((s.seq.scanState = .scan → s.belowLast e) →
      let follow := ¬ s.follows e ∧ s.axc.followOn = false ∧ s.axc.travel ≠ .stopped
      let reverse := ¬ s.rises e ∧ s.axc.reversalOn = false ∧ s.seq.scanState.followsHigh = true
      let raised (k : Cause) : Prop :=
        (k = .following ∧ follow) ∨ (k = .reversal ∧ reverse) ∨ (k = .stall ∧ ¬ s.moves e ∧ 0 < s.config.stallTime)
      ((follow ∨ reverse) → s.pfm.counts.length = 19 →
        ∃ t k ns, exec (.axisUpdate e up low) s = .next t ∧ raised k ∧ Judged k s t ∧ Notified ns s t
          ∧ AbortAnnounced s.seq t.seq (payloads .state ns)
          ∧ (s.axc.travel ≠ .stopped →
            t.axc.travel = .brakingTo ∧ t.axc.moveKind = some .stop ∧ t.axc.target = none ∧ t.axc.vCmd = 0
              ∧ t.axc.waiting = .timed ∧ t.axc.waitTime = 0)
          ∧ (s.axc.travel = .stopped → t.axc.travel = .stopped)
          ∧ t.axc.cmdPos = s.axc.cmdPos ∧ t.axc.steps = 0 ∧ t.axc.stallTimer = 0
          ∧ (∀ j, raised j → t.pfm.count j = min 255 (s.pfm.count j + 1)
            ∧ ∃ f ∈ payloads .fault ns, FaultNotice j .noItem s.seq.scanState s.seq.clock (t.pfm.count j)
              (s.pfm.firstFault.isNone && t.pfm.firstFault.map Capture.kind == some j) f)
          ∧ (∀ j, ¬ raised j → t.pfm.count j = s.pfm.count j)
          ∧ (payloads .fault ns).Nodup ∧ (∀ f ∈ payloads .fault ns, ∃ j, raised j ∧ field f 0 1 = j.code)
          ∧ (s.pfm.firstFault = none → ∃ r, t.pfm.firstFault = some r ∧ raised r.kind ∧ r.item = .noItem
            ∧ r.scanState = s.seq.scanState))
      ∧ (¬ follow → ¬ reverse →
        ∃ t, exec (.axisUpdate e up low) s = .next t ∧ t.pfm.count .following = s.pfm.count .following
          ∧ t.pfm.count .reversal = s.pfm.count .reversal))
    ∧ ((s.seq.scanState = .scan → s.belowLast e) → s.seq.scanState ≠ .approach → s.follows e → s.rises e →
      ¬ s.moves e → 0 < s.config.stallTime →
      ∃ t, exec (.axisUpdate e up low) s = .next t ∧ ChangesOnly [.axc] s t ∧ t.axc.travel = .tracking
        ∧ t.axc.stallTimer = s.config.stallTime ∧ t.axc.cmdPos = s.axc.cmdPos ∧ t.axc.vCmd = s.axc.vCmd
        ∧ t.axc.steps = 0)
    ∧ (s.axc.travel ≠ .movingTo → s.axc.waiting = .notWaiting → s.seq.scanState ≠ .approach →
      (s.seq.scanState = .scan → s.belowLast e) → s.follows e → s.rises e → s.moves e → 0 < s.config.pulsesPerRev →
      let n := s.axc.rotationTimer
      ∃ t, exec (.axisUpdate e up low) s = .next t ∧ ChangesOnly [.axc] s t
        ∧ ((s.axc.travel = .stopped ∨ s.axc.travel = .holding) → t.axc.travel = s.axc.travel)
        ∧ t.axc.spindleSpeed = s.speedNext ∧ t.axc.spindleCmd = s.axc.spindleCmd
        ∧ (s.axc.rotation = .off → t.axc.rotation = .off)
        ∧ (s.axc.rotation = .settling → (s.bandNext → t.axc.rotation = .inBand)
          ∧ (¬ s.bandNext → t.axc.rotation = .settling ∧ t.axc.rotationTimer = min 5000 (n + 1)))
        ∧ (s.axc.rotation = .inBand → (s.bandNext → t.axc.rotation = .inBand)
          ∧ (¬ s.bandNext → t.axc.rotation = .outOfBand ∧ t.axc.rotationTimer = 0))
        ∧ (s.axc.rotation = .outOfBand → t.axc.rotationTimer = min 201 (n + 1)
          ∧ (s.bandNext → t.axc.rotation = .inBand) ∧ (¬ s.bandNext → t.axc.rotation = .outOfBand)))

/-- A rotation pulse: the first since start-up starts the time since the last pulse, each later one gives the period and the
measured speed; each is counted to the HEATING slice with its quarter turns (R87, R128). That a pulse has a place in its
millisecond, from which the period is reckoned, is the model's choice, log entry 25. -/
def Obligations.RotationPulseMeasuresSpeed : Prop :=
  ∀ (micros : Nat) (s : State), s.startup = false → micros < 1000 →
    let n := s.config.pulsesPerRev
    ∃ t, exec (.rotationPulse micros) s = .next t ∧ ChangesOnly [.axc, .slt] s t
      ∧ (s.axc.sincePulse = none → t.axc = { s.axc with usInMs := micros, sincePulse := some 0 })
      ∧ (∀ since, s.axc.sincePulse = some since →
        let period := since + (micros - s.axc.usInMs)
        t.axc = { s.axc with
            usInMs := micros, sincePulse := some 0, lastPeriod := some period, spindleSpeed := t.axc.spindleSpeed }
          ∧ (0 < period → 0 < n → t.axc.spindleSpeed = min 65535 (halfUp 60000000 (period * n))))
      ∧ t.slt = { s.slt with table := t.slt.table }
      ∧ ∀ i, t.slt.table[i]? = if s.slt.underCoil = some i then
            (s.slt.table[i]?).map fun r =>
              { r with
                pulses := min 65535 (r.pulses + 1), quarterTurns := min 65535 (min 65535 (r.pulses + 1) * 4 / n) }
          else s.slt.table[i]?

/-! ### The converter -/

/-- One channel update by the channel's state: the inputs sampled, the power sample formed, the check or timer of the
state; the channel that reaches OFF in an APPROACH which waits for it alone ends that approach in IGNITE; a changed
input taken, CONV_ON high without CONV_FAULT in STARTING making the channel RUNNING, whichever of the two changed; a
converter found on after its stop time reported once, with its FAULT notice (R43, R45, R131 to R134, R136 to R139,
R153). That CONV_ON and CONV_FAULT are timed in this row, and that a timer stops at its threshold with the state kept
until the row of its event, are the model's readings, log entries 5 and 3. -/
def Obligations.ChannelFollowsItsInputs : Prop :=
  ∀ s : State,
    (∀ (code : AdcCode) (on fault : Bool), s.startup = false →
      let power := halfUp (code.toNat * s.config.fullScale) 4095
      let c : CnvState := { s.cnv with
        onInput := on, faultInput := fault, pMeas := power
        onStable := if on = s.cnv.convOn then 0 else min 5 (s.cnv.onStable + 1)
        faultStable := if fault = s.cnv.convFault then 0 else min 5 (s.cnv.faultStable + 1) }
      let stopping : CnvState := { c with
        state := .stopping, enable := false, setpoint := 0, startTimer := none, stopTimer := some 1000, stuck := false
        deviationTimer := 0 }
      let off : CnvState := { c with
        state := .off, enable := false, setpoint := 0, startTimer := none, stopTimer := none, stuck := false }
      ((s.seq.scanState ≠ .approach ∨ s.axc.posReport = false ∨ s.axc.bandReport = false ∨ s.cnv.convOn = true
          ∨ s.cnv.state = .starting ∨ s.cnv.state = .running) →
        exec (.channelUpdate code on fault) s = .next (s.onCnv fun _ =>
          match s.cnv.state with
          | .off => if s.cnv.convOn then stopping else c
          | .starting => { c with startTimer := s.cnv.startTimer.map fun n => n - 1 }
          | .running =>
            { c with
              deviationTimer := if s.config.deviationLimit < absDiff power s.cnv.deliveredPower then
                  min 500 (s.cnv.deviationTimer + 1)
                else 0 }
          | .stopping => if s.cnv.convOn then { c with stopTimer := s.cnv.stopTimer.map fun n => n - 1 } else off))
      ∧ (s.seq.scanState = .approach → s.seq.kind = .production → s.axc.posReport = true → s.axc.bandReport = true →
        s.cnv.convOn = false → s.cnv.state = .stopping →
        ∃ t, exec (.channelUpdate code on fault) s = .next t
          ∧ ChangesOnly [.seq, .axc, .cnv, .qch, .pfm, .lif] s t ∧ StateMove .ignite .approach none s t
          ∧ t.seq = { s.seq with scanState := .ignite }
          ∧ t.axc = { s.axc with highMark := some s.profile.first, nextDwell := t.axc.nextDwell }
          ∧ NextDwell s.profile 0 t.axc.nextDwell
          ∧ t.cnv = { off with state := .starting, enable := true, startTimer := some 2000 }
          ∧ t.pfm.counts = s.pfm.counts ∧ t.pfm.firstFault = s.pfm.firstFault
          ∧ ∀ x, (t.qch.circuit x).output = false))
    ∧ (∀ i, s.cnv.findsOn i → s.seq.scanState ≠ .ignite →
      exec (.convInputChange i) s = .next (s.onCnv fun c =>
        { c with
          convOn := true, convFault := false, onStable := if i = .convOn then 0 else c.onStable
          faultStable := if i = .convFault then 0 else c.faultStable, state := .running, enable := true
          setpoint := c.deliveredCode, startTimer := none, deviationTimer := 0 }))
    ∧ (5 ≤ s.cnv.onStable → s.cnv.onInput ≠ s.cnv.convOn →
      (s.cnv.state = .off ∨ s.cnv.state = .stopping ∨ (s.cnv.state = .running ∧ s.cnv.onInput = true)
        ∨ (s.cnv.state = .starting ∧ (s.cnv.convFault = true ∨ s.cnv.onInput = false))) →
      exec (.convInputChange .convOn) s = .next (s.onCnv fun c => { c with convOn := c.onInput, onStable := 0 }))
    ∧ (5 ≤ s.cnv.faultStable → s.cnv.faultInput ≠ s.cnv.convFault →
      (s.cnv.state = .off ∨ s.cnv.state = .stopping
        ∨ (s.cnv.state = .starting ∧ (s.cnv.convOn = false ∨ s.cnv.faultInput = true))
        ∨ (s.cnv.state = .running ∧ s.cnv.faultInput = false)) →
      exec (.convInputChange .convFault) s = .next (s.onCnv fun c =>
        { c with convFault := c.faultInput, faultStable := 0 }))
    ∧ (s.cnv.state = .stopping → s.cnv.stopTimer = some 0 → s.cnv.convOn = true → s.cnv.stuck = false →
      s.pfm.counts.length = 19 →
      ∃ t, exec .converterStuckOn s = .next t ∧ ChangesOnly [.cnv, .pfm, .lif] s t
        ∧ (∃ f, Notified [(.fault, f)] s t ∧ FaultNotice .converterStuckOn .noItem s.seq.scanState s.seq.clock
          (t.pfm.count .converterStuckOn) s.pfm.firstFault.isNone f)
        ∧ t.cnv = { s.cnv with stuck := true }
        ∧ t.pfm.count .converterStuckOn = min 255 (s.pfm.count .converterStuckOn + 1)
        ∧ (s.pfm.firstFault = none → ∃ r, t.pfm.firstFault = some r ∧ r.kind = .converterStuckOn ∧ r.item = .noItem))

/-- The converter found on in IGNITE, by CONV_ON rising or CONV_FAULT falling: the channel RUNNING and entry to heat, in
DWELL where vertex 0 has a dwell, else in SCAN, slice 0 HEATING with its target, the STATE notice built; a SCAN begun at
rest under an OPEN upper switch raises TRAVEL_LIMIT (R43, R46, R47, R72, R83, R84, R126, R134). No state timer and dwell
vertex in SCAN are the model's choice, log entry 28. -/
def Obligations.ConverterOnBeginsHeat : Prop :=
  ∀ (i : ConvInput) (s : State), s.cnv.findsOn i → s.seq.scanState = .ignite →
    let dwell := (s.profile.vertex 0).plan.dwell
    ((s.axc.upperOpen = false ∨ 0 < dwell ∨ s.axc.vCmd ≠ 0) →
      ∃ t, exec (.convInputChange i) s = .next t ∧ t.cnv.state = .running ∧ t.cnv.enable = true
        ∧ t.cnv.startTimer = none ∧ t.cnv.setpoint = 0 ∧ HeatEntered s.high s t
        ∧ (0 < dwell → t.axc.travel = s.axc.travel))
    ∧ (s.axc.upperOpen = true → dwell = 0 → s.axc.vCmd = 0 → s.pfm.counts.length = 19 →
      ∃ t ns, exec (.convInputChange i) s = .next t ∧ t.pst = s.pst ∧ Notified ns s t
        ∧ TravelLimitFollows { s.seq with scanState := .scan } ns s t)

/-- The samples: a pyrometer code becomes a reading, valid in 500 to 1300 °C; a coolant code a temperature and a derate
limit, the command cut to the effective ceiling at the same event (R36, R140, R141). -/
def Obligations.SamplesBecomeReadings : Prop :=
  ∀ (code : AdcCode) (s : State), s.startup = false →
    exec (.pyrometerSample code) s = .next (s.onCnv fun c =>
      { c with
        tMeas := halfUp (code.toNat * 1400) 4095
        tValid := decide (500 ≤ halfUp (code.toNat * 1400) 4095 ∧ halfUp (code.toNat * 1400) 4095 ≤ 1300) })
    ∧ let temp := halfUp (code.toNat * 1000) 4095
      let k := s.config
      let derate := if temp ≤ k.coolantWarn then k.rating
        else if temp < k.coolantTrip then k.rating * (k.coolantTrip - temp) / (k.coolantTrip - k.coolantWarn) else 0
      let ceiling := min s.profile.header.ceiling (min k.rating derate)
      (temp < k.coolantTrip ∨ s.seq.scanState.isHeat = false) →
      ∃ t, exec (.coolantSample code) s = .next t ∧ ChangesOnly [.cnv, .spg] s t
        ∧ t.cnv.coolant = some temp ∧ t.cnv.derate = derate ∧ t.cnv.hot = decide (k.coolantTrip ≤ temp)
        ∧ t.cnv.state = s.cnv.state ∧ t.cnv.enable = s.cnv.enable
        ∧ (s.spg.pCmd ≤ ceiling → t.spg = s.spg ∧ t.cnv.deliveredPower = s.cnv.deliveredPower)
        ∧ (ceiling < s.spg.pCmd →
          t.spg = { s.spg with pCmd := ceiling, pPrev := ceiling, dacCode := halfUp (ceiling * 4095) k.rating }
            ∧ t.cnv.deliveredPower = ceiling ∧ t.cnv.deliveredCode = halfUp (ceiling * 4095) k.rating)

/-! ### Slices -/

/-- The power sample of a tracking step: all of it unassigned with no slice HEATING; all of it to the HEATING slice where no
slice end lies in the interval from the mark to the high mark; cut at one end, or at the two that R74 allows, each part to
the slice whose range holds it and what lies above the last slice unassigned; however it is cut, none of it is lost or
counted twice (R79, R80). The sums are taken short of saturation. -/
def Obligations.SampleEnergyIsConserved : Prop :=
  ∀ (h : Nat) (s : State),
    (s.seq.scanState = .dwell ∨ s.seq.scanState = .scan ∨ s.seq.scanState = .runout ∨ s.seq.scanState = .quenchOut) →
    s.axc.highMark = some h → s.slt.allEnergy + s.cnv.pMeas ≤ 4294967295 →
    let sample := s.cnv.pMeas
    let was := s.slt.table.map SliceRec.eAct
    let credited (now : List Nat) (unassigned : Nat) : Prop :=
      ∃ t, exec .trackingStep s = .next t ∧ t.slt.table.map SliceRec.eAct = now
        ∧ t.slt.unassigned = s.slt.unassigned + unassigned ∧ t.slt.mark = some h
    (s.slt.underCoil = none → credited was sample)
    ∧ ∀ k m, s.slt.underCoil = some k → k < s.slt.table.length → s.slt.mark = some m →
      ((∀ i r, k ≤ i → s.slt.table[i]? = some r → r.endPos ≤ m ∨ h < r.endPos) →
        credited (was.modify k (· + sample)) 0)
      ∧ (∀ j r, k ≤ j → s.slt.table[j]? = some r → m < r.endPos → r.endPos ≤ h →
        (∀ i q, k ≤ i → i < j → s.slt.table[i]? = some q → q.endPos ≤ m) →
        let part := halfUp (sample * (r.endPos - m)) (h - m)
        ((∀ q, s.slt.table[j + 1]? = some q → h ≤ q.endPos) →
          credited ((was.modify j (· + part)).modify (j + 1) (· + (sample - part)))
            (if j + 1 < s.slt.table.length then 0 else sample - part))
        ∧ ∀ r', s.slt.table[j + 1]? = some r' → r.endPos < r'.endPos → r'.endPos < h →
          (∀ q, s.slt.table[j + 2]? = some q → h ≤ q.endPos) →
          let part' := halfUp (sample * (r'.endPos - r.endPos)) (h - m)
          credited (((was.modify j (· + part)).modify (j + 1) (· + part')).modify (j + 2) (· + (sample - part - part')))
            (if j + 2 < s.slt.table.length then 0 else sample - part - part'))
      ∧ (((s.slt.table.drop k).filter fun r => decide (m < r.endPos) && decide (r.endPos < h)).length ≤ 2 →
        ∃ t, exec .trackingStep s = .next t ∧ t.slt.allEnergy = s.slt.allEnergy + sample ∧ t.slt.mark = some h)

/-- A slice whose end the high mark reaches leaves heat, and the next begins HEATING under the scale then active; a
slice whose start the quench point reaches enters quench, the pattern restarting where the plan says so; one whose end
it reaches leaves quench DONE and evaluated, and the next may enter at once; the last to leave ends RUNOUT, or the
draining of QUENCH_OUT; a slice in transit too long is flagged; a slice that becomes DONE with a flag has its SLICE
notice, one with none has not, and each change of scan state has its STATE notice (R29, R31, R43, R51, R60, R73, R76,
R77, R85, R87, R88, R92, R104). -/
def Obligations.SlicesMoveThroughStates : Prop :=
  ∀ (h : Nat) (s : State), s.axc.highMark = some h →
    (s.seq.scanState = .dwell ∨ s.seq.scanState = .scan ∨ s.seq.scanState = .runout ∨ s.seq.scanState = .quenchOut) →
    let qp : Int := (h : Int) - s.profile.header.quenchOffset
    let clock := s.seq.clock
    let limit := s.profile.header.maxTransfer
    let left (r r' : SliceRec) : Prop := r'.state = .inTransit ∧ r'.leaveTime = some clock
      ∧ hasFlag r'.flags .fewTurns = (hasFlag r.flags .fewTurns
        || (!hasFlag r.flags .heatCut && decide (r.quarterTurns < (s.profile.vertex r.gov).plan.minTurns)))
    let entered (r r' : SliceRec) : Prop := r'.state = .quenching ∧ r'.enterTime = some clock
      ∧ r'.transferTime = some (clock - r.leaveTime.getD clock)
      ∧ hasFlag r'.flags .lateQuench = (hasFlag r.flags .lateQuench || decide (limit < clock - r.leaveTime.getD clock))
    let trimLeft : TrimState :=
      if s.seq.kind = .production ∧ s.spg.trim = .acquiring then .lost else s.spg.trim
    (∀ (k : Nat) (r : SliceRec), s.slt.underCoil = some k → s.slt.table[k]? = some r → r.endPos ≤ h →
      QuenchWaits qp s.slt → (s.slt.atQuench = none → s.slt.transit = [] → qp < r.start) →
      (∀ q, s.slt.table[k + 1]? = some q → k + 1 < s.slt.count → h < q.endPos →
        ∃ t r' q', exec .trackingStep s = .next t ∧ ChangesOnly [.slt, .spg, .qch] s t
          ∧ t.slt.underCoil = some (k + 1) ∧ t.slt.transit = s.slt.transit ++ [k] ∧ t.slt.atQuench = s.slt.atQuench
          ∧ t.slt.table[k]? = some r' ∧ left r r'
          ∧ t.slt.table[k + 1]? = some q' ∧ q'.state = .heating ∧ q'.heatScale = some (s.spg.pendingScale.getD s.spg.scale)
          ∧ t.spg = { s.spg with scale := s.spg.pendingScale.getD s.spg.scale, pendingScale := none, trim := trimLeft })
      ∧ (k + 1 = s.slt.count →
        ∃ t r', exec .trackingStep s = .next t ∧ ChangesOnly [.slt, .spg, .qch] s t ∧ t.slt.underCoil = none
          ∧ t.slt.transit = s.slt.transit ++ [k] ∧ t.slt.atQuench = s.slt.atQuench ∧ t.slt.table[k]? = some r' ∧ left r r'
          ∧ t.spg = { s.spg with trim := trimLeft }))
    ∧ (∀ (k : Nat) (tl : List Nat) (r : SliceRec), HeatStays h s.slt → s.slt.atQuench = none → s.slt.transit = k :: tl →
      s.slt.table[k]? = some r → (r.start : Int) ≤ qp → qp < r.endPos →
      let restarts := k = 0 ∨ ∃ j b, k = j + 1 ∧ s.slt.table[j]? = some b ∧ r.gov ≠ b.gov
        ∧ (s.profile.vertex r.gov).plan.restart = true
      ∃ t r', exec .trackingStep s = .next t ∧ ChangesOnly [.slt, .qch] s t ∧ t.slt.atQuench = some k
        ∧ t.slt.transit = k :: tl ∧ t.slt.underCoil = s.slt.underCoil ∧ t.slt.table[k]? = some r' ∧ entered r r'
        ∧ (restarts → t.qch.patternCount = 0 ∧ t.qch.patternTravel = (qp - r.start).toNat ∧ t.qch.patternMark = some qp)
        ∧ (¬ restarts → t.qch.patternCount = s.qch.patternCount ∧ t.qch.patternTravel = s.qch.patternTravel
          ∧ t.qch.patternMark = s.qch.patternMark))
    ∧ (∀ (k : Nat) (tl : List Nat) (r : SliceRec), HeatStays h s.slt → s.slt.atQuench = some k → s.slt.transit = k :: tl →
      s.slt.table[k]? = some r → (r.endPos : Int) ≤ qp → (∀ j, s.slt.underCoil = some j → k < j) →
      (∀ a b, tl.head? = some a → s.slt.table[a]? = some b → a ≠ k ∧ qp < b.endPos) →
      ∃ t r' ns, exec .trackingStep s = .next t ∧ t.slt.transit = tl ∧ t.slt.lastDone = some k
        ∧ Notified ns s t ∧ (∀ n ∈ ns, n.1 = .slice ∨ n.1 = .state)
        ∧ (r'.flags = 0 → payloads .slice ns = [])
        ∧ (r'.flags ≠ 0 → ∃ c, payloads .slice ns = [c] ∧ SliceNotice k clock r' c)
        ∧ t.slt.underCoil = s.slt.underCoil ∧ t.slt.table[k]? = some r' ∧ r'.state = .done ∧ r'.eAct = r.eAct
        ∧ r'.quenchTime = some (clock - r.enterTime.getD clock)
        ∧ (s.seq.kind = .production → r'.specific = some (min 65535 (halfUp (10 * r.eAct) r.length))
          ∧ ∀ g, r.eTgt = some g → 0 < g →
            let d := clampInt (-1000) 32767 (halfAway (1000 * ((r.eAct : Int) - g)) g)
            r'.deviation = some d
              ∧ hasFlag r'.flags .energyLow
                = (hasFlag r.flags .energyLow || decide (d < -(s.profile.header.tolerance : Int)))
              ∧ hasFlag r'.flags .energyHigh
                = (hasFlag r.flags .energyHigh || decide ((s.profile.header.tolerance : Int) < d)))
        ∧ (∀ a b, tl.head? = some a → s.slt.table[a]? = some b →
          t.seq = s.seq ∧ payloads .state ns = [] ∧ (qp < b.start → t.slt.atQuench = none)
            ∧ ((b.start : Int) ≤ qp → t.slt.atQuench = some a ∧ ∃ b', t.slt.table[a]? = some b' ∧ entered b b'))
        ∧ (tl = [] → t.slt.atQuench = none
          ∧ ((s.seq.scanState = .dwell ∨ s.seq.scanState = .scan) → t.seq = s.seq ∧ payloads .state ns = [])
          ∧ (s.seq.scanState = .runout → 0 < s.profile.header.soakTime →
            t.seq = { s.seq with scanState := .soak, timer := some s.profile.header.soakTime }
              ∧ ∃ c, payloads .state ns = [c] ∧ StateNotice .soak .runout t.seq none c)
          ∧ (s.seq.scanState = .runout → s.profile.header.soakTime = 0 → t.seq.scanState = .idle
            ∧ ∃ m c d f, t.ord.summary = some m ∧ payloads .state ns = [c, d, f] ∧ field c 0 1 = ScanState.soak.code
              ∧ field c 1 1 = ScanState.runout.code ∧ StateNotice .complete .soak t.seq (some m.result) d
              ∧ StateNotice .idle .complete t.seq none f)
          ∧ (s.seq.scanState = .quenchOut → s.seq.phase = some .draining → 0 < s.profile.header.soakTime →
            t.seq = { s.seq with phase := some .holding, timer := some s.profile.header.soakTime }
              ∧ payloads .state ns = [])
          ∧ (s.seq.scanState = .quenchOut → s.seq.phase = some .draining → s.profile.header.soakTime = 0 →
            t.seq.scanState = .halted
              ∧ ∃ c, payloads .state ns = [c] ∧ StateNotice .halted .quenchOut t.seq (some .aborted) c)))
    ∧ (HeatStays h s.slt → QuenchWaits qp s.slt →
      ∃ t, exec .trackingStep s = .next t ∧ ChangesOnly [.slt, .qch] s t ∧ t.slt.transit = s.slt.transit
        ∧ t.slt.underCoil = s.slt.underCoil ∧ t.slt.atQuench = s.slt.atQuench ∧ t.slt.mark = some h
        ∧ ∀ (i : Nat) (r : SliceRec), s.slt.table[i]? = some r → ∃ r' : SliceRec, t.slt.table[i]? = some r'
          ∧ r'.state = r.state
          ∧ r'.flags = if r.state = .inTransit ∧ limit < clock - r.leaveTime.getD clock then setFlag r.flags .lateQuench
            else r.flags)

/-! ### Quench -/

/-- One quench update: the readbacks and their times, the pattern counter, the demands of Table 5-2 by scan state, and the
outputs through the gate of the quench permit and the six states; and a circuit that returns from MISMATCH (R95 to R103,
R109). That the disagreement time counts on to 151 with the circuit not yet in MISMATCH, its entry left to its own row, is
the model's reading, log entries 3 and 4. -/
def Obligations.QuenchUpdateGatesValves : Prop :=
  ∀ s : State,
    (∀ levels : Circuit → Bool, s.startup = false →
      ∃ t, exec (.quenchUpdate (levels .ringA) (levels .ringB) (levels .flood)) s = .next t
        ∧ ChangesOnly [.qch] s t
        ∧ (∀ c, (t.qch.circuit c).readback = some (levels c)
          ∧ ((s.qch.circuit c).state = .mismatch → (t.qch.circuit c).state = .mismatch
            ∧ (t.qch.circuit c).output = false
            ∧ (t.qch.circuit c).agree = (if levels c then 0 else min 150 ((s.qch.circuit c).agree + 1)))
          ∧ ((s.qch.circuit c).state ≠ .mismatch →
            (t.qch.circuit c).disagree =
                (if levels c = (s.qch.circuit c).output then 0 else min 151 ((s.qch.circuit c).disagree + 1))
              ∧ (t.qch.circuit c).output =
                ((t.qch.circuit c).demand && s.pfm.permits.quenchPressureOk && s.seq.scanState.allowsQuench)
              ∧ (t.qch.circuit c).state = (if (t.qch.circuit c).output then .opened else .closed))
          ∧ (s.seq.kind = .dry → (t.qch.circuit c).demand = false))
        ∧ (s.seq.kind = .production → t.qch.flood.demand = (s.seq.scanState == .flood))
        ∧ (s.seq.kind = .production →
          (s.seq.scanState = .idle ∨ s.seq.scanState = .approach ∨ s.seq.scanState = .ignite ∨ s.seq.scanState = .flood
            ∨ s.seq.scanState = .halted) →
          t.qch.ringA.demand = false ∧ t.qch.ringB.demand = false)
        ∧ (s.seq.kind = .production →
          (s.seq.scanState = .soak ∨ (s.seq.scanState = .quenchOut ∧ s.seq.phase = some .holding)) →
          (s.slt.lastDone = none → t.qch.ringA.demand = false ∧ t.qch.ringB.demand = false)
          ∧ ∀ k r, s.slt.lastDone = some k → s.slt.table[k]? = some r →
            t.qch.ringA.demand = r.ringMask.getLsbD 0 ∧ t.qch.ringB.demand = r.ringMask.getLsbD 1)
        ∧ (s.seq.kind = .production →
          (s.seq.scanState = .dwell ∨ s.seq.scanState = .scan ∨ s.seq.scanState = .runout
            ∨ (s.seq.scanState = .quenchOut ∧ s.seq.phase = some .draining)) →
          (s.slt.atQuench = none → t.qch.ringA.demand = false ∧ t.qch.ringB.demand = false)
          ∧ (∀ k r, s.slt.atQuench = some k → s.slt.table[k]? = some r →
            let on := r.pattern == 0 || (s.profile.header.patterns.getD (r.pattern - 1) ⟨1, 0⟩).steps.getLsbD
              (if r.pattern = 0 then 0 else
                t.qch.patternCount % (s.profile.header.patterns.getD (r.pattern - 1) ⟨1, 0⟩).period)
            t.qch.ringA.demand = (r.ringMask.getLsbD 0 && on) ∧ t.qch.ringB.demand = (r.ringMask.getLsbD 1 && on)
              ∧ ∀ h m, s.axc.highMark = some h → s.qch.patternMark = some m →
                let rise := s.qch.patternTravel + ((h : Int) - s.profile.header.quenchOffset - m).toNat
                t.qch.patternCount = s.qch.patternCount + rise / 50 ∧ t.qch.patternTravel = rise % 50
                  ∧ t.qch.patternMark = some ((h : Int) - s.profile.header.quenchOffset))))
    ∧ (∀ c, (s.qch.circuit c).state = .mismatch → 150 ≤ (s.qch.circuit c).agree →
      ∃ t, exec (.mismatchCleared c) s = .next t ∧ ChangesOnly [.qch] s t
        ∧ (t.qch.circuit c).disagree = 0 ∧ (t.qch.circuit c).agree = 0
        ∧ (t.qch.circuit c).output =
          ((t.qch.circuit c).demand && s.pfm.permits.quenchPressureOk && s.seq.scanState.allowsQuench)
        ∧ (t.qch.circuit c).state = (if (t.qch.circuit c).output then .opened else .closed))

/-- A flow pulse is counted; a flow update forms each circuit's flow from the last ten periods and runs its check, marks
FLOW_LOW on the slice at quench where a WATCHING ring is low, and confirms an UNCONFIRMED flood marking where the FLOOD flow
is established; a WATCHING FLOOD circuit found low is reported once for its opening, as CauseIsTakenAndJudged states; a ring
whose rise time passes is WATCHING with its flow not established and FLOW_LOW on the slice at quench (R90, R105 to R108). -/
def Obligations.FlowIsFormedAndChecked : Prop :=
  ∀ s : State, s.startup = false →
    (∀ c, exec (.flowPulse c) s = .next (s.onQch fun q => q.onCircuit c fun r => { r with pulses := r.pulses + 1 }))
    ∧ (¬ (s.findsLow .flood ∧ s.qch.flood.lowRaised = false) →
      ∃ t, exec .flowUpdate s = .next t ∧ ChangesOnly [.qch, .slt] s t
        ∧ (∀ c, let was := s.qch.circuit c
          let rises := was.check = .rising ∧ s.leastFlow c ≤ s.flowFormed c
          t.qch.circuit c = { was with
            flow := s.flowFormed c, pulses := 0, window := (was.pulses :: was.window).take 9
            check := if rises then .watching else was.check
            established := if rises then true else was.established
            flowLow := if was.check = .watching then decide (s.flowFormed c < s.leastFlow c) else was.flowLow })
        ∧ t.slt = { s.slt with
            table := t.slt.table
            floodStatus := if s.qch.flood.check = .rising ∧ s.leastFlow .flood ≤ s.flowFormed .flood
                ∧ s.slt.floodStatus = .unconfirmed then .confirmed else s.slt.floodStatus }
        ∧ ((s.findsLow .ringA ∨ s.findsLow .ringB) → ∀ i, t.slt.table[i]? = if s.slt.atQuench = some i then
              (s.slt.table[i]?).map fun r => r.flag .flowLow
            else s.slt.table[i]?)
        ∧ (¬ s.findsLow .ringA → ¬ s.findsLow .ringB → t.slt.table = s.slt.table))
    ∧ (s.findsLow .flood → s.qch.flood.lowRaised = false →
      ∃ t, exec .flowUpdate s = .next t ∧ t.qch.flood.lowRaised = true ∧ t.slt.floodStatus = s.slt.floodStatus
        ∧ ∀ c, (t.qch.circuit c).flow = s.flowFormed c ∧ (t.qch.circuit c).pulses = 0
          ∧ (t.qch.circuit c).window = ((s.qch.circuit c).pulses :: (s.qch.circuit c).window).take 9)
    ∧ (∀ c, c ≠ .flood → (s.qch.circuit c).check = .rising → s.config.flowRiseTime ≤ (s.qch.circuit c).riseElapsed →
      ∃ t, exec (.riseTimeExpiry c) s = .next t ∧ ChangesOnly [.qch, .slt] s t
        ∧ t.qch = s.qch.onCircuit c (fun r => { r with check := .watching, established := false, flowLow := true })
        ∧ t.slt = { s.slt with table := t.slt.table }
        ∧ ∀ i, t.slt.table[i]? = if s.slt.atQuench = some i then (s.slt.table[i]?).map fun r => r.flag .flowLow
            else s.slt.table[i]?)

/-! ### The monitor -/

/-- A monitor update times the permits, the selector and the START input; a permit that has differed for 5 ms changes its
filtered state, and outside a scan nothing else follows but the lamps, the forced zero and, through the gate, the valves,
unless a jog is under way, which the loss of a motion permit ends in a quick stop, or a moving carriage loses DRIVE_READY,
which stops it and is a fault; a permit lost while a scan runs is a fault, which a RUNNING channel that loses CONV_READY and
a moving carriage that loses DRIVE_READY raise a second time, each with its FAULT notice; a fallen START input only lowers
its filtered level, an edge not judged as a start only builds an ORDER notice, and one while a restart is pending not even
that (R118, R121, R123, R126, R135, R144 to R148, R153, R165, R184). That START is
timed in this row, that the filtered states stay until their own rows, that a third selector position starts its time at
1 ms, and that a quick stop begins a wait already under way anew, are the model's readings, log entries 5, 3, 27 and 20. -/
def Obligations.MonitorFiltersInputs : Prop :=
  ∀ s : State,
    (∀ f : MonitorLevels, s.startup = false → ∃ t, exec (.monitorUpdate f) s = .next t ∧ ChangesOnly [.pfm, .ord] s t
      ∧ t.pfm.permits = s.pfm.permits ∧ t.pfm.selector = s.pfm.selector ∧ t.pfm.firstFault = s.pfm.firstFault
      ∧ t.pfm.counts = s.pfm.counts ∧ t.pfm.decoded = decodeSelector f.selSetup f.selAuto
      ∧ t.pfm.codeInvalid = (f.selSetup && f.selAuto)
      ∧ (∀ x, permitGet t.pfm.permitInputs x = permitGet f.permits x ∧ permitGet t.pfm.permitStable x =
        if permitGet f.permits x = permitGet s.pfm.permits x then 0 else min 5 (permitGet s.pfm.permitStable x + 1))
      ∧ t.pfm.selectorStable = (if decodeSelector f.selSetup f.selAuto = s.pfm.selector then 0
          else if decodeSelector f.selSetup f.selAuto = s.pfm.decoded then min 20 (s.pfm.selectorStable + 1) else 1)
      ∧ t.ord = { s.ord with
          startInput := f.start
          startStable := if f.start = s.ord.startLevel then 0 else min 5 (s.ord.startStable + 1) })
    ∧ (∀ x, 5 ≤ permitGet s.pfm.permitStable x → permitGet s.pfm.permitInputs x ≠ permitGet s.pfm.permits x →
      (s.scanRunning = false → (x = .convReady → s.cnv.state ≠ .running) →
        (permitGet s.pfm.permits x = false ∨ s.axc.travel = .stopped ∨ (x ≠ .driveReady ∧ s.axc.moveKind ≠ some .jog)
          ∨ x = .coolantFlowOk ∨ x = .convReady ∨ x = .quenchPressureOk) →
        ∃ t, exec (.permitChange x) s = .next t ∧ (∀ y, permitGet t.pfm.permits y =
            if y = x then permitGet s.pfm.permitInputs x else permitGet s.pfm.permits y)
          ∧ permitGet t.pfm.permitStable x = 0 ∧ t.pfm.counts = s.pfm.counts ∧ t.pfm.firstFault = s.pfm.firstFault
          ∧ t.seq = s.seq ∧ t.axc = s.axc ∧ t.lif = s.lif ∧ t.ord = s.ord ∧ t.slt = s.slt ∧ t.pst = s.pst
          ∧ t.pfm.lampReady = t.lampReadyNow)
      ∧ (s.scanRunning = false → permitGet s.pfm.permits x = true →
        (((x = .guardClosed ∨ x = .estopClear) ∧ s.pfm.motionPermits = true ∧ s.axc.travel = .movingTo
            ∧ s.axc.moveKind = some .jog)
          ∨ (x = .driveReady ∧ s.axc.travel ≠ .stopped)) →
        ∃ t, exec (.permitChange x) s = .next t ∧ permitGet t.pfm.permits x = false ∧ t.seq = s.seq ∧ t.ord = s.ord
          ∧ t.slt = s.slt ∧ t.pst = s.pst ∧ s.lif.NoticesOnly t.lif
          ∧ t.axc = { s.axc with
              travel := .brakingTo, moveKind := some .stop, target := none, vCmd := 0, waiting := .timed, waitTime := 0 }
          ∧ (x ≠ .driveReady → t.pfm.counts = s.pfm.counts ∧ t.pfm.firstFault = s.pfm.firstFault ∧ t.lif = s.lif)
          ∧ (x = .driveReady → s.pfm.counts.length = 19 →
            t.pfm.count .driveNotReady = min 255 (s.pfm.count .driveNotReady + 1)
              ∧ (∃ f, Notified [(.fault, f)] s t ∧ FaultNotice .driveNotReady .noItem s.seq.scanState s.seq.clock
                (t.pfm.count .driveNotReady) s.pfm.firstFault.isNone f)
              ∧ (s.pfm.firstFault = none → ∃ r, t.pfm.firstFault = some r ∧ r.kind = .driveNotReady
                ∧ r.scanState = s.seq.scanState)))
      ∧ (s.scanRunning = true → permitGet s.pfm.permits x = true → s.pfm.counts.length = 19 →
        let k := permitCause x
        let raises := if (x = .convReady ∧ s.cnv.state = .running) ∨ (x = .driveReady ∧ s.axc.travel ≠ .stopped) then 2 else 1
        ∃ t, exec (.permitChange x) s = .next t ∧ permitGet t.pfm.permits x = false
          ∧ t.pfm.count k = min 255 (s.pfm.count k + raises) ∧ t.pfm.firstFault.isSome
          ∧ (∃ ns, Notified ns s t ∧ ((payloads .fault ns).filter fun f => field f 0 1 == k.code).length = raises)
          ∧ (x = .convReady → t.cnv.state ≠ .running)
          ∧ (s.pfm.firstFault = none → ¬ s.riseBlocked →
            ∃ r, t.pfm.firstFault = some r ∧ r.kind = k ∧ r.scanState = s.seq.scanState)))
    ∧ (5 ≤ s.ord.startStable → s.ord.startInput = false → s.ord.startLevel = true →
      exec .startInputFall s = .next (s.onOrd fun d => { d with startLevel := false, startStable := 0 }))
    ∧ (s.startup = false → s.lif.restartPending = false → 5 ≤ s.ord.startStable → s.ord.startInput = true →
      s.ord.startLevel = false →
      let up := s.onOrd fun d => { d with startLevel := true, startStable := 0 }
      (s.ord.queue = [] →
        exec .startEdge s = .next (notice .order [0, 0, byteOf Status.noOrder.code, 0, 0xFF] up))
      ∧ ∀ o rest, s.ord.queue = o :: rest → o.lineStart = false →
        exec .startEdge s = .next (notice .order (beBytes 2 o.tag
          ++ [byteOf Status.notInControl.code, byteOf (rest.length + 1), 0xFF]) up))
    ∧ (s.startup = false → s.lif.restartPending = true → 5 ≤ s.ord.startStable → s.ord.startInput = true →
      s.ord.startLevel = false →
      exec .startEdge s = .next (s.onOrd fun d => { d with startLevel := true, startStable := 0 }))

/-- A new selector position, held for 20 ms: the filtered position changes, LOCKED releases authority, and one SELECTOR
notice is built, which carries the positions, the scan state and whether authority was released; with no scan running
and the carriage STOPPED the lamps are re-formed and nothing else follows; a jog ends in a quick stop on leaving SETUP;
a running scan takes the cause SELECTOR where the position is not the one it started under, as no fault, and is left
alone where it is; where the QUENCH_OUT it leads to finds its rise forbidden, TRAVEL_LIMIT takes it to FLOOD (R43, R59,
R64, R66, R118, R126, R148, R149, R182). That HALTED holds no state timer, that a quick stop begins a wait already under
way anew, and that the notice carries the scan state after SEQ's action, are the model's choices, log entries 28, 20 and
54. -/
def Obligations.SelectorChangeIsReported : Prop :=
  ∀ s : State, 20 ≤ s.pfm.selectorStable → s.pfm.decoded ≠ s.pfm.selector →
    let turned (t : State) : Prop := t.pfm.selector = s.pfm.decoded ∧ t.pfm.selectorStable = 0
      ∧ t.pfm.permits = s.pfm.permits ∧ t.lif.holder = (if s.pfm.decoded = .locked then none else s.lif.holder)
      ∧ t.lif.restartPending = s.lif.restartPending
    let told (t : State) (c : List Byte) : Prop := SelectorNotice s.pfm.decoded s.pfm.selector t.seq.scanState
      (s.lif.holder.isSome && s.pfm.decoded == .locked) c
    let kept (t : State) : Prop := turned t ∧ t.pfm.firstFault = s.pfm.firstFault ∧ t.pfm.counts = s.pfm.counts
    let changed (t : State) : Prop := kept t ∧ ∃ c, Offered [(.selector, c)] s t ∧ told t c
    (s.scanRunning = false → s.axc.travel = .stopped →
      ∃ t, exec .selectorChange s = .next t ∧ ChangesOnly [.pfm, .lif] s t ∧ changed t
        ∧ t.pfm.lampReady = t.lampReadyNow ∧ t.pfm.lampFault = t.lampFaultNow)
    ∧ (s.scanRunning = false → s.axc.travel = .movingTo → s.axc.moveKind = some .jog →
      ∃ t, exec .selectorChange s = .next t ∧ ChangesOnly [.pfm, .lif, .axc] s t ∧ changed t
        ∧ (s.pfm.decoded = .setup → t.axc = s.axc)
        ∧ (s.pfm.decoded ≠ .setup → t.axc = { s.axc with
          travel := .brakingTo, moveKind := some .stop, target := none, vCmd := 0, waiting := .timed, waitTime := 0 }))
    ∧ (s.scanRunning = true → s.seq.startSelector = some s.pfm.decoded →
      ∃ t, exec .selectorChange s = .next t ∧ ChangesOnly [.pfm, .lif, .axc] s t ∧ changed t
        ∧ (s.axc.moveKind ≠ some .jog → t.axc = s.axc))
    ∧ (s.scanRunning = true → s.seq.startSelector ≠ some s.pfm.decoded →
      (¬ s.riseBlocked →
        ∃ t ns c, exec .selectorChange s = .next t ∧ kept t ∧ t.startup = s.startup ∧ t.pending = s.pending
          ∧ t.pst = s.pst ∧ t.ord.queue = s.ord.queue ∧ Judged .selector s t ∧ Offered ns s t
          ∧ payloads .selector ns = [c] ∧ told t c ∧ payloads .fault ns = []
          ∧ AbortAnnounced s.seq t.seq (payloads .state ns))
      ∧ (s.riseBlocked → s.pfm.counts.length = 19 →
        ∃ t ns c, exec .selectorChange s = .next t ∧ turned t ∧ t.startup = s.startup ∧ t.pending = s.pending
          ∧ t.pst = s.pst ∧ t.ord.queue = s.ord.queue ∧ Offered ns s t ∧ payloads .selector ns = [c] ∧ told t c
          ∧ TravelLimitFollows { s.seq with
              scanState := .quenchOut, abortCause := some .selector, abortState := some s.seq.scanState } ns s t))

/-! ### Invariants that every step keeps -/

/-- Every invariant below holds right after reset (R17, R39, R41, R67, R95, R113, R131, R144, R159, R161, R174).
State.reset is taken with the nonvolatile memory of the factory: the model's choice, log entry 7. -/
def Obligations.ResetMeetsInvariants : Prop :=
  SetpointOnlyWhenAllowed State.reset ∧ PowerBounded State.reset ∧ ValvesGated State.reset ∧ LinkBounded State.reset
    ∧ LockedUnheld State.reset ∧ QueueSound State.reset ∧ PatchesDistinct State.reset
    ∧ ResultLampsExclusive State.reset ∧ LampsFollow State.reset ∧ AbortRecordSound State.reset
    ∧ SequenceItemsSound State.reset ∧ WritingMatchesChannel State.reset

/-- No power is commanded, and no code leaves for the converter, outside the heat states, in a dry scan or while a heat
permit is absent (R21, R37, R132). -/
def Obligations.StepKeepsSetpointGuarded : Prop :=
  ∀ s t : State, SetpointOnlyWhenAllowed s → step s = .next t → SetpointOnlyWhenAllowed t

/-- The power command never exceeds the effective ceiling (R34 to R36). -/
def Obligations.StepKeepsPowerBounded : Prop :=
  ∀ s t : State, PowerBounded s → step s = .next t → PowerBounded t

/-- A valve is commanded open only on its demand, under the quench permit, in the six states, out of MISMATCH (R95,
R98). -/
def Obligations.StepKeepsValvesGated : Prop :=
  ∀ s t : State, ValvesGated s → step s = .next t → ValvesGated t

/-- The link's queues stay within their sizes, and LOCKED leaves no holder (R176, R178, R181, R182). -/
def Obligations.StepKeepsLinkSound : Prop :=
  ∀ s t : State, step s = .next t → (LinkBounded s → LinkBounded t) ∧ (LockedUnheld s → LockedUnheld t)

/-- The order queue holds at most four orders of distinct tags, no two patch slots name one vertex, and after start-up a
slot is WRITING exactly while the write channel is busy with it (R8, R16, R162, R170). -/
def Obligations.StepKeepsOrdersAndStoreSound : Prop :=
  ∀ s t : State, step s = .next t →
    (QueueSound s → QueueSound t) ∧ (PatchesDistinct s → PatchesDistinct t)
      ∧ (WritingMatchesChannel s → WritingMatchesChannel t)

/-- The indicators show what R156 and R157 say, and never two results (R156 to R158, R169). -/
def Obligations.StepKeepsIndicatorsTrue : Prop :=
  ∀ s t : State, step s = .next t →
    (ResultLampsExclusive s → ResultLampsExclusive t) ∧ (LampsFollow s → LampsFollow t)

/-- The abort record is full exactly from the first cause on; the QUENCH_OUT phase, the dwell vertex and the state timer are
held in their own scan states only, the timer in DWELL, SOAK, FLOOD and the holding of QUENCH_OUT; and COMPLETE is never
found (R41, R43, R48, R52, R57, R60, R61). That no other state holds a dwell vertex or a timer is the model's choice, log
entry 28. -/
def Obligations.StepKeepsSequenceSound : Prop :=
  ∀ s t : State, step s = .next t →
    (AbortRecordSound s → AbortRecordSound t) ∧ (SequenceItemsSound s → SequenceItemsSound t)
end

