-- ==== Sys2Proof/Laws/Axis.lean ====
section
/-! SUPPORT. What the axis operations do, in the words of the statements: the measured speed and its band, the next dwell
vertex, a motion from rest, a move's target and end, a jog's conditions, a converter found on. -/

namespace Sys2Proof.Machine

/-! ### Rotation -/

/-- The speed after the rotation timing of an axis update (R128). -/
theorem rotationTick_speed (s : State) (h : 0 < s.config.pulsesPerRev) :
    (s.axc.rotationTick s.config.pulsesPerRev).spindleSpeed = s.speedNext := by
  unfold AxcState.rotationTick State.speedNext AxcState.coasting
  cases s.axc.sincePulse with
  | none => rfl
  | some t =>
    cases e : s.axc.lastPeriod with
    | none => simp only
    | some period =>
      simp only
      split
      · rfl
      · split
        · next hs =>
          have : (t + (1000 - s.axc.usInMs)) * s.config.pulsesPerRev ≠ 0 :=
            Nat.mul_ne_zero (by omega) (by omega)
          rw [rotationSpeed, if_neg this]; rfl
        · rfl

/-- The band test on an axis that holds the next speed and the present command (R129). -/
theorem inBand_iff {a : AxcState} {s : State} (hc : a.spindleCmd = s.axc.spindleCmd)
    (hs : a.spindleSpeed = s.speedNext) : a.inBand s.config.rotationBand = true ↔ s.bandNext := by
  simp [AxcState.inBand, State.bandNext, hc, hs]

/-- The next dwell vertex found is the lowest above an index, or there is none (R120). -/
theorem nextDwell_above (p : Profile) (j : Nat) : NextDwell p j (nextDwellAbove p.vertices j) := by
  have at' : ∀ k (h : k < (p.vertices.drop (j + 1)).length),
      (p.vertices.drop (j + 1))[k].plan.dwell = (p.vertex (k + j + 1)).plan.dwell := by
    intro k h
    have hk : j + 1 + k < p.vertices.length := by rw [List.length_drop] at h; omega
    simp only [Profile.vertex, List.getElem_drop, List.getD_eq_getElem?_getD,
      show k + j + 1 = j + 1 + k by omega, List.getElem?_eq_getElem hk, Option.getD_some]
  constructor
  · intro i hi
    obtain ⟨k, hk, rfl⟩ := Option.map_eq_some_iff.1 hi
    obtain ⟨hl, hp, hn⟩ := List.findIdx?_eq_some_iff_getElem.1 hk
    refine ⟨by omega, by rw [List.length_drop] at hl; omega, ?_, fun m hm hmi => ?_⟩
    · rw [at' k hl] at hp; simpa using hp
    · have h := hn (m - (j + 1)) (by omega)
      rw [at' (m - (j + 1)) (by omega), show m - (j + 1) + j + 1 = m by omega] at h
      simpa using h
  · intro h m hm hl
    have hn := List.findIdx?_eq_none_iff.1 (Option.map_eq_none_iff.1 h)
    have hk : m - (j + 1) < (p.vertices.drop (j + 1)).length := by rw [List.length_drop]; omega
    have := hn _ (List.getElem_mem hk)
    rw [at' _ hk, show m - (j + 1) + j + 1 = m by omega] at this
    simpa using this

/-! ### Motions from rest -/

/-- A motion from rest is forbidden exactly by the OPEN switch toward its target, a target within 5 pu by none (R117,
R126). -/
theorem startMotion_blocked (a : AxcState) (kind : MoveKind) (n : Nat) (h : a.vCmd = 0) :
    (a.startMotion kind n).blocked = approachBlocked n a := by
  unfold AxcState.startMotion approachBlocked AxcState.distance AxcState.toward AxcState.blockedBy AxcState.isOpen milli
    absDiff
  simp only [h, ne_eq, not_true, if_false]
  repeat' split
  all_goals first | rfl | omega | simp_all [Direction.limit] <;> omega

/-- A target given is forbidden by the same switch, in motion by none (R117). -/
theorem giveTarget_blocked (a : AxcState) (accel : Nat) (kind : MoveKind) (n : Nat) :
    (a.giveTarget accel kind n).blocked = approachBlocked n a := by
  unfold AxcState.giveTarget
  split
  · next h => exact startMotion_blocked a kind n h
  · next h => simp [approachBlocked, h]

/-- Condition 7 of R118. -/
theorem mayJog_iff (a : AxcState) :
    a.mayJog = true ↔ a.travel = .stopped ∨ (a.travel = .movingTo ∧ a.moveKind = some .jog) := by
  simp [AxcState.mayJog]

/-- Condition 8 of R118. -/
theorem jogFree_iff (a : AxcState) (n : Nat) :
    a.jogFree n = true ↔ n = a.x ∨ (a.x < n ∧ a.upperOpen = false) ∨ (n < a.x ∧ a.lowerOpen = false) := by
  unfold AxcState.jogFree AxcState.isOpen
  by_cases h : n = a.x
  · simp [h]
  · by_cases hl : a.x < n
    · simp [h, hl]; omega
    · have : n < a.x := by omega
      simp [h, hl, this]

/-! ### A move under way -/

/-- A target ahead of the axis (R117). -/
theorem ahead_iff (a : AxcState) (n : Nat) : a.ahead n = true ↔ aheadOf a.direction a.cmdPos (1000 * n) := by
  unfold AxcState.ahead aheadOf milli
  cases a.direction <;> simp <;> omega

/-- The end of a move (R117). -/
theorem moveEnds_iff (a : AxcState) (n : Nat) :
    a.moveEnds n = true
      ↔ ¬ aheadOf a.direction a.cmdPos (1000 * n) ∨ (absDiff (1000 * n) a.cmdPos ≤ 5000 ∧ a.vCmd ≤ 50) := by
  rw [← ahead_iff, show 1000 * n = milli n by unfold milli; omega]
  unfold AxcState.moveEnds
  simp [AxcState.distance.eq_1]

/-- The commanded position after the advance of an update (R114). -/
theorem advance_cmdPos (a : AxcState) : a.advance.cmdPos = movedTo a.direction a.cmdPos a.vCmd := by
  unfold AxcState.advance movedTo milli positionMax
  cases a.direction <;> rfl

/-- A motion about to begin is forbidden by the OPEN switch in its direction (R126). -/
theorem blockedBy_eq (a : AxcState) (d : Direction) : a.blockedBy d = a.openToward d := by
  cases d <;> rfl

/-! ### A rise from rest -/

/-- A rise from rest is forbidden exactly by the OPEN upper switch (R126). -/
theorem trackBlocked_isSome (a : AxcState) : a.trackBlocked.isSome = true ↔ a.upperOpen = true ∧ a.vCmd = 0 := by
  unfold AxcState.trackBlocked AxcState.blockedBy AxcState.isOpen Direction.limit
  by_cases h : a.vCmd = 0 <;> cases hu : a.upperOpen <;> simp [h]

/-! ### The converter found on -/

/-- A change of input at which a channel in STARTING finds the converter on: the change is due, and taking it shows
CONV_ON high and CONV_FAULT low (R131, R134). -/
theorem CnvState.findsOn_iff (c : CnvState) (i : ConvInput) :
    c.findsOn i ↔ c.inputDue i = true ∧ (c.takeInput i).onSeen = true := by
  cases i <;> cases h1 : c.convOn <;> cases h2 : c.convFault <;> cases h3 : c.onInput <;> cases h4 : c.faultInput <;>
    simp [CnvState.findsOn, CnvState.inputDue, CnvState.takeInput, CnvState.onSeen, h1, h2, h3, h4,
      and_comm]

end Sys2Proof.Machine
end

