-- ==== Sys2Proof/Laws/State.lean ====
section
/-! SUPPORT. One lemma per field per update of the state: what an update of one block leaves of every other, so that
no proof unfolds a record update. -/

namespace Sys2Proof.Machine

variable (s : State)

@[simp] theorem State.onLif_startup (f : LifState → LifState) : (s.onLif f).startup = s.startup := rfl
@[simp] theorem State.onLif_lif (f : LifState → LifState) : (s.onLif f).lif = f s.lif := rfl
@[simp] theorem State.onLif_pst (f : LifState → LifState) : (s.onLif f).pst = s.pst := rfl
@[simp] theorem State.onLif_ord (f : LifState → LifState) : (s.onLif f).ord = s.ord := rfl
@[simp] theorem State.onLif_seq (f : LifState → LifState) : (s.onLif f).seq = s.seq := rfl
@[simp] theorem State.onLif_spg (f : LifState → LifState) : (s.onLif f).spg = s.spg := rfl
@[simp] theorem State.onLif_axc (f : LifState → LifState) : (s.onLif f).axc = s.axc := rfl
@[simp] theorem State.onLif_cnv (f : LifState → LifState) : (s.onLif f).cnv = s.cnv := rfl
@[simp] theorem State.onLif_slt (f : LifState → LifState) : (s.onLif f).slt = s.slt := rfl
@[simp] theorem State.onLif_qch (f : LifState → LifState) : (s.onLif f).qch = s.qch := rfl
@[simp] theorem State.onLif_pfm (f : LifState → LifState) : (s.onLif f).pfm = s.pfm := rfl
@[simp] theorem State.onLif_freeCount (f : LifState → LifState) : (s.onLif f).freeCount = s.freeCount := rfl
@[simp] theorem State.onLif_pending (f : LifState → LifState) : (s.onLif f).pending = s.pending := rfl

@[simp] theorem State.onPst_startup (f : PstState → PstState) : (s.onPst f).startup = s.startup := rfl
@[simp] theorem State.onPst_lif (f : PstState → PstState) : (s.onPst f).lif = s.lif := rfl
@[simp] theorem State.onPst_pst (f : PstState → PstState) : (s.onPst f).pst = f s.pst := rfl
@[simp] theorem State.onPst_ord (f : PstState → PstState) : (s.onPst f).ord = s.ord := rfl
@[simp] theorem State.onPst_seq (f : PstState → PstState) : (s.onPst f).seq = s.seq := rfl
@[simp] theorem State.onPst_spg (f : PstState → PstState) : (s.onPst f).spg = s.spg := rfl
@[simp] theorem State.onPst_axc (f : PstState → PstState) : (s.onPst f).axc = s.axc := rfl
@[simp] theorem State.onPst_cnv (f : PstState → PstState) : (s.onPst f).cnv = s.cnv := rfl
@[simp] theorem State.onPst_slt (f : PstState → PstState) : (s.onPst f).slt = s.slt := rfl
@[simp] theorem State.onPst_qch (f : PstState → PstState) : (s.onPst f).qch = s.qch := rfl
@[simp] theorem State.onPst_pfm (f : PstState → PstState) : (s.onPst f).pfm = s.pfm := rfl
@[simp] theorem State.onPst_freeCount (f : PstState → PstState) : (s.onPst f).freeCount = s.freeCount := rfl
@[simp] theorem State.onPst_pending (f : PstState → PstState) : (s.onPst f).pending = s.pending := rfl

@[simp] theorem State.onOrd_startup (f : OrdState → OrdState) : (s.onOrd f).startup = s.startup := rfl
@[simp] theorem State.onOrd_lif (f : OrdState → OrdState) : (s.onOrd f).lif = s.lif := rfl
@[simp] theorem State.onOrd_pst (f : OrdState → OrdState) : (s.onOrd f).pst = s.pst := rfl
@[simp] theorem State.onOrd_ord (f : OrdState → OrdState) : (s.onOrd f).ord = f s.ord := rfl
@[simp] theorem State.onOrd_seq (f : OrdState → OrdState) : (s.onOrd f).seq = s.seq := rfl
@[simp] theorem State.onOrd_spg (f : OrdState → OrdState) : (s.onOrd f).spg = s.spg := rfl
@[simp] theorem State.onOrd_axc (f : OrdState → OrdState) : (s.onOrd f).axc = s.axc := rfl
@[simp] theorem State.onOrd_cnv (f : OrdState → OrdState) : (s.onOrd f).cnv = s.cnv := rfl
@[simp] theorem State.onOrd_slt (f : OrdState → OrdState) : (s.onOrd f).slt = s.slt := rfl
@[simp] theorem State.onOrd_qch (f : OrdState → OrdState) : (s.onOrd f).qch = s.qch := rfl
@[simp] theorem State.onOrd_pfm (f : OrdState → OrdState) : (s.onOrd f).pfm = s.pfm := rfl
@[simp] theorem State.onOrd_freeCount (f : OrdState → OrdState) : (s.onOrd f).freeCount = s.freeCount := rfl
@[simp] theorem State.onOrd_pending (f : OrdState → OrdState) : (s.onOrd f).pending = s.pending := rfl

@[simp] theorem State.onSeq_startup (f : SeqState → SeqState) : (s.onSeq f).startup = s.startup := rfl
@[simp] theorem State.onSeq_lif (f : SeqState → SeqState) : (s.onSeq f).lif = s.lif := rfl
@[simp] theorem State.onSeq_pst (f : SeqState → SeqState) : (s.onSeq f).pst = s.pst := rfl
@[simp] theorem State.onSeq_ord (f : SeqState → SeqState) : (s.onSeq f).ord = s.ord := rfl
@[simp] theorem State.onSeq_seq (f : SeqState → SeqState) : (s.onSeq f).seq = f s.seq := rfl
@[simp] theorem State.onSeq_spg (f : SeqState → SeqState) : (s.onSeq f).spg = s.spg := rfl
@[simp] theorem State.onSeq_axc (f : SeqState → SeqState) : (s.onSeq f).axc = s.axc := rfl
@[simp] theorem State.onSeq_cnv (f : SeqState → SeqState) : (s.onSeq f).cnv = s.cnv := rfl
@[simp] theorem State.onSeq_slt (f : SeqState → SeqState) : (s.onSeq f).slt = s.slt := rfl
@[simp] theorem State.onSeq_qch (f : SeqState → SeqState) : (s.onSeq f).qch = s.qch := rfl
@[simp] theorem State.onSeq_pfm (f : SeqState → SeqState) : (s.onSeq f).pfm = s.pfm := rfl
@[simp] theorem State.onSeq_freeCount (f : SeqState → SeqState) : (s.onSeq f).freeCount = s.freeCount := rfl
@[simp] theorem State.onSeq_pending (f : SeqState → SeqState) : (s.onSeq f).pending = s.pending := rfl

@[simp] theorem State.onSpg_startup (f : SpgState → SpgState) : (s.onSpg f).startup = s.startup := rfl
@[simp] theorem State.onSpg_lif (f : SpgState → SpgState) : (s.onSpg f).lif = s.lif := rfl
@[simp] theorem State.onSpg_pst (f : SpgState → SpgState) : (s.onSpg f).pst = s.pst := rfl
@[simp] theorem State.onSpg_ord (f : SpgState → SpgState) : (s.onSpg f).ord = s.ord := rfl
@[simp] theorem State.onSpg_seq (f : SpgState → SpgState) : (s.onSpg f).seq = s.seq := rfl
@[simp] theorem State.onSpg_spg (f : SpgState → SpgState) : (s.onSpg f).spg = f s.spg := rfl
@[simp] theorem State.onSpg_axc (f : SpgState → SpgState) : (s.onSpg f).axc = s.axc := rfl
@[simp] theorem State.onSpg_cnv (f : SpgState → SpgState) : (s.onSpg f).cnv = s.cnv := rfl
@[simp] theorem State.onSpg_slt (f : SpgState → SpgState) : (s.onSpg f).slt = s.slt := rfl
@[simp] theorem State.onSpg_qch (f : SpgState → SpgState) : (s.onSpg f).qch = s.qch := rfl
@[simp] theorem State.onSpg_pfm (f : SpgState → SpgState) : (s.onSpg f).pfm = s.pfm := rfl
@[simp] theorem State.onSpg_freeCount (f : SpgState → SpgState) : (s.onSpg f).freeCount = s.freeCount := rfl
@[simp] theorem State.onSpg_pending (f : SpgState → SpgState) : (s.onSpg f).pending = s.pending := rfl

@[simp] theorem State.onAxc_startup (f : AxcState → AxcState) : (s.onAxc f).startup = s.startup := rfl
@[simp] theorem State.onAxc_lif (f : AxcState → AxcState) : (s.onAxc f).lif = s.lif := rfl
@[simp] theorem State.onAxc_pst (f : AxcState → AxcState) : (s.onAxc f).pst = s.pst := rfl
@[simp] theorem State.onAxc_ord (f : AxcState → AxcState) : (s.onAxc f).ord = s.ord := rfl
@[simp] theorem State.onAxc_seq (f : AxcState → AxcState) : (s.onAxc f).seq = s.seq := rfl
@[simp] theorem State.onAxc_spg (f : AxcState → AxcState) : (s.onAxc f).spg = s.spg := rfl
@[simp] theorem State.onAxc_axc (f : AxcState → AxcState) : (s.onAxc f).axc = f s.axc := rfl
@[simp] theorem State.onAxc_cnv (f : AxcState → AxcState) : (s.onAxc f).cnv = s.cnv := rfl
@[simp] theorem State.onAxc_slt (f : AxcState → AxcState) : (s.onAxc f).slt = s.slt := rfl
@[simp] theorem State.onAxc_qch (f : AxcState → AxcState) : (s.onAxc f).qch = s.qch := rfl
@[simp] theorem State.onAxc_pfm (f : AxcState → AxcState) : (s.onAxc f).pfm = s.pfm := rfl
@[simp] theorem State.onAxc_freeCount (f : AxcState → AxcState) : (s.onAxc f).freeCount = s.freeCount := rfl
@[simp] theorem State.onAxc_pending (f : AxcState → AxcState) : (s.onAxc f).pending = s.pending := rfl

@[simp] theorem State.onCnv_startup (f : CnvState → CnvState) : (s.onCnv f).startup = s.startup := rfl
@[simp] theorem State.onCnv_lif (f : CnvState → CnvState) : (s.onCnv f).lif = s.lif := rfl
@[simp] theorem State.onCnv_pst (f : CnvState → CnvState) : (s.onCnv f).pst = s.pst := rfl
@[simp] theorem State.onCnv_ord (f : CnvState → CnvState) : (s.onCnv f).ord = s.ord := rfl
@[simp] theorem State.onCnv_seq (f : CnvState → CnvState) : (s.onCnv f).seq = s.seq := rfl
@[simp] theorem State.onCnv_spg (f : CnvState → CnvState) : (s.onCnv f).spg = s.spg := rfl
@[simp] theorem State.onCnv_axc (f : CnvState → CnvState) : (s.onCnv f).axc = s.axc := rfl
@[simp] theorem State.onCnv_cnv (f : CnvState → CnvState) : (s.onCnv f).cnv = f s.cnv := rfl
@[simp] theorem State.onCnv_slt (f : CnvState → CnvState) : (s.onCnv f).slt = s.slt := rfl
@[simp] theorem State.onCnv_qch (f : CnvState → CnvState) : (s.onCnv f).qch = s.qch := rfl
@[simp] theorem State.onCnv_pfm (f : CnvState → CnvState) : (s.onCnv f).pfm = s.pfm := rfl
@[simp] theorem State.onCnv_freeCount (f : CnvState → CnvState) : (s.onCnv f).freeCount = s.freeCount := rfl
@[simp] theorem State.onCnv_pending (f : CnvState → CnvState) : (s.onCnv f).pending = s.pending := rfl

@[simp] theorem State.onSlt_startup (f : SltState → SltState) : (s.onSlt f).startup = s.startup := rfl
@[simp] theorem State.onSlt_lif (f : SltState → SltState) : (s.onSlt f).lif = s.lif := rfl
@[simp] theorem State.onSlt_pst (f : SltState → SltState) : (s.onSlt f).pst = s.pst := rfl
@[simp] theorem State.onSlt_ord (f : SltState → SltState) : (s.onSlt f).ord = s.ord := rfl
@[simp] theorem State.onSlt_seq (f : SltState → SltState) : (s.onSlt f).seq = s.seq := rfl
@[simp] theorem State.onSlt_spg (f : SltState → SltState) : (s.onSlt f).spg = s.spg := rfl
@[simp] theorem State.onSlt_axc (f : SltState → SltState) : (s.onSlt f).axc = s.axc := rfl
@[simp] theorem State.onSlt_cnv (f : SltState → SltState) : (s.onSlt f).cnv = s.cnv := rfl
@[simp] theorem State.onSlt_slt (f : SltState → SltState) : (s.onSlt f).slt = f s.slt := rfl
@[simp] theorem State.onSlt_qch (f : SltState → SltState) : (s.onSlt f).qch = s.qch := rfl
@[simp] theorem State.onSlt_pfm (f : SltState → SltState) : (s.onSlt f).pfm = s.pfm := rfl
@[simp] theorem State.onSlt_freeCount (f : SltState → SltState) : (s.onSlt f).freeCount = s.freeCount := rfl
@[simp] theorem State.onSlt_pending (f : SltState → SltState) : (s.onSlt f).pending = s.pending := rfl

@[simp] theorem State.onQch_startup (f : QchState → QchState) : (s.onQch f).startup = s.startup := rfl
@[simp] theorem State.onQch_lif (f : QchState → QchState) : (s.onQch f).lif = s.lif := rfl
@[simp] theorem State.onQch_pst (f : QchState → QchState) : (s.onQch f).pst = s.pst := rfl
@[simp] theorem State.onQch_ord (f : QchState → QchState) : (s.onQch f).ord = s.ord := rfl
@[simp] theorem State.onQch_seq (f : QchState → QchState) : (s.onQch f).seq = s.seq := rfl
@[simp] theorem State.onQch_spg (f : QchState → QchState) : (s.onQch f).spg = s.spg := rfl
@[simp] theorem State.onQch_axc (f : QchState → QchState) : (s.onQch f).axc = s.axc := rfl
@[simp] theorem State.onQch_cnv (f : QchState → QchState) : (s.onQch f).cnv = s.cnv := rfl
@[simp] theorem State.onQch_slt (f : QchState → QchState) : (s.onQch f).slt = s.slt := rfl
@[simp] theorem State.onQch_qch (f : QchState → QchState) : (s.onQch f).qch = f s.qch := rfl
@[simp] theorem State.onQch_pfm (f : QchState → QchState) : (s.onQch f).pfm = s.pfm := rfl
@[simp] theorem State.onQch_freeCount (f : QchState → QchState) : (s.onQch f).freeCount = s.freeCount := rfl
@[simp] theorem State.onQch_pending (f : QchState → QchState) : (s.onQch f).pending = s.pending := rfl

@[simp] theorem State.onPfm_startup (f : PfmState → PfmState) : (s.onPfm f).startup = s.startup := rfl
@[simp] theorem State.onPfm_lif (f : PfmState → PfmState) : (s.onPfm f).lif = s.lif := rfl
@[simp] theorem State.onPfm_pst (f : PfmState → PfmState) : (s.onPfm f).pst = s.pst := rfl
@[simp] theorem State.onPfm_ord (f : PfmState → PfmState) : (s.onPfm f).ord = s.ord := rfl
@[simp] theorem State.onPfm_seq (f : PfmState → PfmState) : (s.onPfm f).seq = s.seq := rfl
@[simp] theorem State.onPfm_spg (f : PfmState → PfmState) : (s.onPfm f).spg = s.spg := rfl
@[simp] theorem State.onPfm_axc (f : PfmState → PfmState) : (s.onPfm f).axc = s.axc := rfl
@[simp] theorem State.onPfm_cnv (f : PfmState → PfmState) : (s.onPfm f).cnv = s.cnv := rfl
@[simp] theorem State.onPfm_slt (f : PfmState → PfmState) : (s.onPfm f).slt = s.slt := rfl
@[simp] theorem State.onPfm_qch (f : PfmState → PfmState) : (s.onPfm f).qch = s.qch := rfl
@[simp] theorem State.onPfm_pfm (f : PfmState → PfmState) : (s.onPfm f).pfm = f s.pfm := rfl
@[simp] theorem State.onPfm_freeCount (f : PfmState → PfmState) : (s.onPfm f).freeCount = s.freeCount := rfl
@[simp] theorem State.onPfm_pending (f : PfmState → PfmState) : (s.onPfm f).pending = s.pending := rfl

@[simp] theorem State.setStartup_startup (b : Bool) : (s.setStartup b).startup = b := rfl
@[simp] theorem State.setStartup_lif (b : Bool) : (s.setStartup b).lif = s.lif := rfl
@[simp] theorem State.setStartup_pst (b : Bool) : (s.setStartup b).pst = s.pst := rfl
@[simp] theorem State.setStartup_ord (b : Bool) : (s.setStartup b).ord = s.ord := rfl
@[simp] theorem State.setStartup_seq (b : Bool) : (s.setStartup b).seq = s.seq := rfl
@[simp] theorem State.setStartup_spg (b : Bool) : (s.setStartup b).spg = s.spg := rfl
@[simp] theorem State.setStartup_axc (b : Bool) : (s.setStartup b).axc = s.axc := rfl
@[simp] theorem State.setStartup_cnv (b : Bool) : (s.setStartup b).cnv = s.cnv := rfl
@[simp] theorem State.setStartup_slt (b : Bool) : (s.setStartup b).slt = s.slt := rfl
@[simp] theorem State.setStartup_qch (b : Bool) : (s.setStartup b).qch = s.qch := rfl
@[simp] theorem State.setStartup_pfm (b : Bool) : (s.setStartup b).pfm = s.pfm := rfl
@[simp] theorem State.setStartup_freeCount (b : Bool) : (s.setStartup b).freeCount = s.freeCount := rfl
@[simp] theorem State.setStartup_pending (b : Bool) : (s.setStartup b).pending = s.pending := rfl

@[simp] theorem State.setPending_startup (cs : List Instr) : (s.setPending cs).startup = s.startup := rfl
@[simp] theorem State.setPending_lif (cs : List Instr) : (s.setPending cs).lif = s.lif := rfl
@[simp] theorem State.setPending_pst (cs : List Instr) : (s.setPending cs).pst = s.pst := rfl
@[simp] theorem State.setPending_ord (cs : List Instr) : (s.setPending cs).ord = s.ord := rfl
@[simp] theorem State.setPending_seq (cs : List Instr) : (s.setPending cs).seq = s.seq := rfl
@[simp] theorem State.setPending_spg (cs : List Instr) : (s.setPending cs).spg = s.spg := rfl
@[simp] theorem State.setPending_axc (cs : List Instr) : (s.setPending cs).axc = s.axc := rfl
@[simp] theorem State.setPending_cnv (cs : List Instr) : (s.setPending cs).cnv = s.cnv := rfl
@[simp] theorem State.setPending_slt (cs : List Instr) : (s.setPending cs).slt = s.slt := rfl
@[simp] theorem State.setPending_qch (cs : List Instr) : (s.setPending cs).qch = s.qch := rfl
@[simp] theorem State.setPending_pfm (cs : List Instr) : (s.setPending cs).pfm = s.pfm := rfl
@[simp] theorem State.setPending_freeCount (cs : List Instr) : (s.setPending cs).freeCount = s.freeCount := rfl
@[simp] theorem State.setPending_pending (cs : List Instr) : (s.setPending cs).pending = cs := rfl

@[simp] theorem State.setFree_startup (n : Nat) : (s.setFree n).startup = s.startup := rfl
@[simp] theorem State.setFree_lif (n : Nat) : (s.setFree n).lif = s.lif := rfl
@[simp] theorem State.setFree_pst (n : Nat) : (s.setFree n).pst = s.pst := rfl
@[simp] theorem State.setFree_ord (n : Nat) : (s.setFree n).ord = s.ord := rfl
@[simp] theorem State.setFree_seq (n : Nat) : (s.setFree n).seq = s.seq := rfl
@[simp] theorem State.setFree_spg (n : Nat) : (s.setFree n).spg = s.spg := rfl
@[simp] theorem State.setFree_axc (n : Nat) : (s.setFree n).axc = s.axc := rfl
@[simp] theorem State.setFree_cnv (n : Nat) : (s.setFree n).cnv = s.cnv := rfl
@[simp] theorem State.setFree_slt (n : Nat) : (s.setFree n).slt = s.slt := rfl
@[simp] theorem State.setFree_qch (n : Nat) : (s.setFree n).qch = s.qch := rfl
@[simp] theorem State.setFree_pfm (n : Nat) : (s.setFree n).pfm = s.pfm := rfl
@[simp] theorem State.setFree_pending (n : Nat) : (s.setFree n).pending = s.pending := rfl
@[simp] theorem State.setFree_freeCount (n : Nat) : (s.setFree n).freeCount = n := rfl
@[simp] theorem State.setFree_self : s.setFree s.freeCount = s := rfl

@[simp] theorem State.bumpFree_startup : s.bumpFree.startup = s.startup := rfl
@[simp] theorem State.bumpFree_lif : s.bumpFree.lif = s.lif := rfl
@[simp] theorem State.bumpFree_pst : s.bumpFree.pst = s.pst := rfl
@[simp] theorem State.bumpFree_ord : s.bumpFree.ord = s.ord := rfl
@[simp] theorem State.bumpFree_seq : s.bumpFree.seq = s.seq := rfl
@[simp] theorem State.bumpFree_spg : s.bumpFree.spg = s.spg := rfl
@[simp] theorem State.bumpFree_axc : s.bumpFree.axc = s.axc := rfl
@[simp] theorem State.bumpFree_cnv : s.bumpFree.cnv = s.cnv := rfl
@[simp] theorem State.bumpFree_slt : s.bumpFree.slt = s.slt := rfl
@[simp] theorem State.bumpFree_qch : s.bumpFree.qch = s.qch := rfl
@[simp] theorem State.bumpFree_pfm : s.bumpFree.pfm = s.pfm := rfl
@[simp] theorem State.bumpFree_freeCount : s.bumpFree.freeCount = s.freeCount + 1 := rfl
@[simp] theorem State.bumpFree_pending : s.bumpFree.pending = s.pending := rfl

/-! ### Two updates of one block, and an update by the identity -/

@[simp] theorem State.onLif_onLif (f g : LifState → LifState) : (s.onLif f).onLif g = s.onLif (fun x => g (f x)) := rfl
@[simp] theorem State.onPst_onPst (f g : PstState → PstState) : (s.onPst f).onPst g = s.onPst (fun x => g (f x)) := rfl
@[simp] theorem State.onOrd_onOrd (f g : OrdState → OrdState) : (s.onOrd f).onOrd g = s.onOrd (fun x => g (f x)) := rfl
@[simp] theorem State.onSeq_onSeq (f g : SeqState → SeqState) : (s.onSeq f).onSeq g = s.onSeq (fun x => g (f x)) := rfl
@[simp] theorem State.onSpg_onSpg (f g : SpgState → SpgState) : (s.onSpg f).onSpg g = s.onSpg (fun x => g (f x)) := rfl
@[simp] theorem State.onAxc_onAxc (f g : AxcState → AxcState) : (s.onAxc f).onAxc g = s.onAxc (fun x => g (f x)) := rfl
@[simp] theorem State.onCnv_onCnv (f g : CnvState → CnvState) : (s.onCnv f).onCnv g = s.onCnv (fun x => g (f x)) := rfl
@[simp] theorem State.onSlt_onSlt (f g : SltState → SltState) : (s.onSlt f).onSlt g = s.onSlt (fun x => g (f x)) := rfl
@[simp] theorem State.onQch_onQch (f g : QchState → QchState) : (s.onQch f).onQch g = s.onQch (fun x => g (f x)) := rfl
@[simp] theorem State.onPfm_onPfm (f g : PfmState → PfmState) : (s.onPfm f).onPfm g = s.onPfm (fun x => g (f x)) := rfl

/-! ### Ports and circuits -/

variable (l : LifState) (q : QchState)

@[simp] theorem LifState.onPort_same (p : Port) (f : PortState → PortState) : (l.onPort p f).port p = f (l.port p) := by
  cases p <;> rfl

/-- The other port's items are kept (R174). -/
theorem LifState.onPort_other {p r : Port} (h : r ≠ p) (f : PortState → PortState) :
    (l.onPort p f).port r = l.port r := by
  cases p <;> cases r <;> first | rfl | exact absurd rfl h

@[simp] theorem LifState.onPort_holder (p : Port) (f : PortState → PortState) : (l.onPort p f).holder = l.holder := by
  cases p <;> rfl

@[simp] theorem LifState.onPort_restartPending (p : Port) (f : PortState → PortState) :
    (l.onPort p f).restartPending = l.restartPending := by
  cases p <;> rfl

@[simp] theorem QchState.onCircuit_same (c : Circuit) (f : CircuitRec → CircuitRec) :
    (q.onCircuit c f).circuit c = f (q.circuit c) := by
  cases c <;> rfl

/-- The other circuits' items are kept. -/
theorem QchState.onCircuit_other {c d : Circuit} (h : d ≠ c) (f : CircuitRec → CircuitRec) :
    (q.onCircuit c f).circuit d = q.circuit d := by
  cases c <;> cases d <;> first | rfl | exact absurd rfl h

@[simp] theorem QchState.onCircuit_patternCount (c : Circuit) (f : CircuitRec → CircuitRec) :
    (q.onCircuit c f).patternCount = q.patternCount := by
  cases c <;> rfl

@[simp] theorem QchState.onCircuit_patternTravel (c : Circuit) (f : CircuitRec → CircuitRec) :
    (q.onCircuit c f).patternTravel = q.patternTravel := by
  cases c <;> rfl

@[simp] theorem QchState.onCircuit_patternMark (c : Circuit) (f : CircuitRec → CircuitRec) :
    (q.onCircuit c f).patternMark = q.patternMark := by
  cases c <;> rfl

end Sys2Proof.Machine
end

