-- ==== Sys2Proof/Laws/Ops.lean ====
section
/-! SUPPORT. One frame lemma per shared operation: the blocks it leaves as they are. Each is a conjunction of
equations, so that simp pushes a block's items through the operation. -/

namespace Sys2Proof.Machine

/-- A notice changes LIF alone (R179). -/
@[simp] theorem notice_frame (k : NoticeKind) (bs : List Byte) (s : State) :
    (notice k bs s).startup = s.startup ∧ (notice k bs s).pst = s.pst ∧ (notice k bs s).ord = s.ord ∧
    (notice k bs s).seq = s.seq ∧ (notice k bs s).spg = s.spg ∧ (notice k bs s).axc = s.axc ∧
    (notice k bs s).cnv = s.cnv ∧ (notice k bs s).slt = s.slt ∧ (notice k bs s).qch = s.qch ∧
    (notice k bs s).pfm = s.pfm ∧ (notice k bs s).freeCount = s.freeCount ∧
    (notice k bs s).pending = s.pending := by
  exact ⟨rfl, rfl, rfl, rfl, rfl, rfl, rfl, rfl, rfl, rfl, rfl, rfl⟩

/-- Re-forming the lamps changes PFM alone (R156, R157). -/
@[simp] theorem reformLamps_frame (s : State) :
    (reformLamps s).startup = s.startup ∧ (reformLamps s).lif = s.lif ∧ (reformLamps s).pst = s.pst ∧
    (reformLamps s).ord = s.ord ∧ (reformLamps s).seq = s.seq ∧ (reformLamps s).spg = s.spg ∧
    (reformLamps s).axc = s.axc ∧ (reformLamps s).cnv = s.cnv ∧ (reformLamps s).slt = s.slt ∧
    (reformLamps s).qch = s.qch ∧ (reformLamps s).freeCount = s.freeCount ∧
    (reformLamps s).pending = s.pending := by
  exact ⟨rfl, rfl, rfl, rfl, rfl, rfl, rfl, rfl, rfl, rfl, rfl, rfl⟩

/-- Announcing a change of scan state changes LIF and PFM alone (R43). -/
@[simp] theorem announce_frame (prev : ScanState) (r : Option ScanResult) (s : State) :
    (announce prev r s).startup = s.startup ∧ (announce prev r s).pst = s.pst ∧
    (announce prev r s).ord = s.ord ∧ (announce prev r s).seq = s.seq ∧ (announce prev r s).spg = s.spg ∧
    (announce prev r s).axc = s.axc ∧ (announce prev r s).cnv = s.cnv ∧ (announce prev r s).slt = s.slt ∧
    (announce prev r s).qch = s.qch ∧ (announce prev r s).freeCount = s.freeCount ∧
    (announce prev r s).pending = s.pending := by
  exact ⟨rfl, rfl, rfl, rfl, rfl, rfl, rfl, rfl, rfl, rfl, rfl⟩

/-- PFM taking a fault changes LIF and PFM alone (R150). -/
@[simp] theorem pfmTake_frame (r : FaultReport) (s : State) :
    (pfmTake r s).startup = s.startup ∧ (pfmTake r s).pst = s.pst ∧ (pfmTake r s).ord = s.ord ∧
    (pfmTake r s).seq = s.seq ∧ (pfmTake r s).spg = s.spg ∧ (pfmTake r s).axc = s.axc ∧
    (pfmTake r s).cnv = s.cnv ∧ (pfmTake r s).slt = s.slt ∧ (pfmTake r s).qch = s.qch ∧
    (pfmTake r s).freeCount = s.freeCount ∧ (pfmTake r s).pending = s.pending := by
  unfold pfmTake; cases s.pfm.firstFault <;> simp

/-- A delivery of power changes SPG and CNV alone (R37). -/
@[simp] theorem deliverPower_frame (n : Nat) (s : State) :
    (deliverPower n s).startup = s.startup ∧ (deliverPower n s).lif = s.lif ∧ (deliverPower n s).pst = s.pst ∧
    (deliverPower n s).ord = s.ord ∧ (deliverPower n s).seq = s.seq ∧ (deliverPower n s).axc = s.axc ∧
    (deliverPower n s).slt = s.slt ∧ (deliverPower n s).qch = s.qch ∧ (deliverPower n s).pfm = s.pfm ∧
    (deliverPower n s).freeCount = s.freeCount ∧ (deliverPower n s).pending = s.pending := by
  exact ⟨rfl, rfl, rfl, rfl, rfl, rfl, rfl, rfl, rfl, rfl, rfl⟩

/-- The forced zero changes SPG and CNV alone (R21). -/
@[simp] theorem forceZero_frame (s : State) :
    (forceZero s).startup = s.startup ∧ (forceZero s).lif = s.lif ∧ (forceZero s).pst = s.pst ∧
    (forceZero s).ord = s.ord ∧ (forceZero s).seq = s.seq ∧ (forceZero s).axc = s.axc ∧
    (forceZero s).slt = s.slt ∧ (forceZero s).qch = s.qch ∧ (forceZero s).pfm = s.pfm ∧
    (forceZero s).freeCount = s.freeCount ∧ (forceZero s).pending = s.pending := by
  exact ⟨rfl, rfl, rfl, rfl, rfl, rfl, rfl, rfl, rfl, rfl, rfl⟩

/-- The end of heat changes SPG and CNV alone (R21, R29). -/
@[simp] theorem endHeat_frame (s : State) :
    (endHeat s).startup = s.startup ∧ (endHeat s).lif = s.lif ∧ (endHeat s).pst = s.pst ∧
    (endHeat s).ord = s.ord ∧ (endHeat s).seq = s.seq ∧ (endHeat s).axc = s.axc ∧ (endHeat s).slt = s.slt ∧
    (endHeat s).qch = s.qch ∧ (endHeat s).pfm = s.pfm ∧ (endHeat s).freeCount = s.freeCount ∧
    (endHeat s).pending = s.pending := by
  exact ⟨rfl, rfl, rfl, rfl, rfl, rfl, rfl, rfl, rfl, rfl, rfl⟩

/-- Discarding a pending scale changes SPG alone (R29). -/
@[simp] theorem dropPending_frame (s : State) :
    (dropPending s).startup = s.startup ∧ (dropPending s).lif = s.lif ∧ (dropPending s).pst = s.pst ∧
    (dropPending s).ord = s.ord ∧ (dropPending s).seq = s.seq ∧ (dropPending s).axc = s.axc ∧
    (dropPending s).cnv = s.cnv ∧ (dropPending s).slt = s.slt ∧ (dropPending s).qch = s.qch ∧
    (dropPending s).pfm = s.pfm ∧ (dropPending s).freeCount = s.freeCount ∧
    (dropPending s).pending = s.pending := by
  exact ⟨rfl, rfl, rfl, rfl, rfl, rfl, rfl, rfl, rfl, rfl, rfl, rfl⟩

/-- A derate cut changes SPG and CNV alone (R36). -/
@[simp] theorem derateCut_frame (s : State) :
    (derateCut s).startup = s.startup ∧ (derateCut s).lif = s.lif ∧ (derateCut s).pst = s.pst ∧
    (derateCut s).ord = s.ord ∧ (derateCut s).seq = s.seq ∧ (derateCut s).axc = s.axc ∧
    (derateCut s).slt = s.slt ∧ (derateCut s).qch = s.qch ∧ (derateCut s).pfm = s.pfm ∧
    (derateCut s).freeCount = s.freeCount ∧ (derateCut s).pending = s.pending := by
  unfold derateCut; split <;> simp

/-- Activating a span changes SPG and AXC alone (R22, R127). -/
@[simp] theorem activateSpan_frame (i : Nat) (s : State) :
    (activateSpan i s).startup = s.startup ∧ (activateSpan i s).lif = s.lif ∧ (activateSpan i s).pst = s.pst ∧
    (activateSpan i s).ord = s.ord ∧ (activateSpan i s).seq = s.seq ∧ (activateSpan i s).cnv = s.cnv ∧
    (activateSpan i s).slt = s.slt ∧ (activateSpan i s).qch = s.qch ∧ (activateSpan i s).pfm = s.pfm ∧
    (activateSpan i s).freeCount = s.freeCount ∧ (activateSpan i s).pending = s.pending := by
  exact ⟨rfl, rfl, rfl, rfl, rfl, rfl, rfl, rfl, rfl, rfl, rfl⟩

/-- Writing the summary changes ORD and PFM alone (R158, R172). -/
@[simp] theorem writeSummary_frame (r : ScanResult) (s : State) :
    (writeSummary r s).startup = s.startup ∧ (writeSummary r s).lif = s.lif ∧ (writeSummary r s).pst = s.pst ∧
    (writeSummary r s).seq = s.seq ∧ (writeSummary r s).spg = s.spg ∧ (writeSummary r s).axc = s.axc ∧
    (writeSummary r s).cnv = s.cnv ∧ (writeSummary r s).slt = s.slt ∧ (writeSummary r s).qch = s.qch ∧
    (writeSummary r s).freeCount = s.freeCount ∧ (writeSummary r s).pending = s.pending := by
  exact ⟨rfl, rfl, rfl, rfl, rfl, rfl, rfl, rfl, rfl, rfl, rfl⟩

/-- A SLICE notice changes LIF alone (R92). -/
@[simp] theorem sliceNotice_frame (k : Nat) (s : State) :
    (sliceNotice k s).startup = s.startup ∧ (sliceNotice k s).pst = s.pst ∧ (sliceNotice k s).ord = s.ord ∧
    (sliceNotice k s).seq = s.seq ∧ (sliceNotice k s).spg = s.spg ∧ (sliceNotice k s).axc = s.axc ∧
    (sliceNotice k s).cnv = s.cnv ∧ (sliceNotice k s).slt = s.slt ∧ (sliceNotice k s).qch = s.qch ∧
    (sliceNotice k s).pfm = s.pfm ∧ (sliceNotice k s).freeCount = s.freeCount ∧
    (sliceNotice k s).pending = s.pending := by
  unfold sliceNotice; split
  · simp
  · split <;> simp

/-- SLICE notices change LIF alone (R92). -/
@[simp] theorem sliceNotices_frame (ks : List Nat) (s : State) :
    (sliceNotices ks s).startup = s.startup ∧ (sliceNotices ks s).pst = s.pst ∧
    (sliceNotices ks s).ord = s.ord ∧ (sliceNotices ks s).seq = s.seq ∧ (sliceNotices ks s).spg = s.spg ∧
    (sliceNotices ks s).axc = s.axc ∧ (sliceNotices ks s).cnv = s.cnv ∧ (sliceNotices ks s).slt = s.slt ∧
    (sliceNotices ks s).qch = s.qch ∧ (sliceNotices ks s).pfm = s.pfm ∧
    (sliceNotices ks s).freeCount = s.freeCount ∧ (sliceNotices ks s).pending = s.pending := by
  induction ks generalizing s with
  | nil => exact ⟨rfl, rfl, rfl, rfl, rfl, rfl, rfl, rfl, rfl, rfl, rfl, rfl⟩
  | cons k ks ih => simp [sliceNotices, ih]

/-- The marking at entry to FLOOD changes SLT and LIF alone (R90). -/
@[simp] theorem markFlood_frame (s : State) :
    (markFlood s).startup = s.startup ∧ (markFlood s).pst = s.pst ∧ (markFlood s).ord = s.ord ∧
    (markFlood s).seq = s.seq ∧ (markFlood s).spg = s.spg ∧ (markFlood s).axc = s.axc ∧
    (markFlood s).cnv = s.cnv ∧ (markFlood s).qch = s.qch ∧ (markFlood s).pfm = s.pfm ∧
    (markFlood s).freeCount = s.freeCount ∧ (markFlood s).pending = s.pending := by
  simp [markFlood]

/-- The marking at the STOP action changes SLT and LIF alone (R91). -/
@[simp] theorem markStop_frame (s : State) :
    (markStop s).startup = s.startup ∧ (markStop s).pst = s.pst ∧ (markStop s).ord = s.ord ∧
    (markStop s).seq = s.seq ∧ (markStop s).spg = s.spg ∧ (markStop s).axc = s.axc ∧ (markStop s).cnv = s.cnv ∧
    (markStop s).qch = s.qch ∧ (markStop s).pfm = s.pfm ∧ (markStop s).freeCount = s.freeCount ∧
    (markStop s).pending = s.pending := by
  simp [markStop]

/-- Re-forming demands and outputs changes QCH alone (R98, R99). -/
@[simp] theorem reformQuench_frame (s : State) :
    (reformQuench s).startup = s.startup ∧ (reformQuench s).lif = s.lif ∧ (reformQuench s).pst = s.pst ∧
    (reformQuench s).ord = s.ord ∧ (reformQuench s).seq = s.seq ∧ (reformQuench s).spg = s.spg ∧
    (reformQuench s).axc = s.axc ∧ (reformQuench s).cnv = s.cnv ∧ (reformQuench s).slt = s.slt ∧
    (reformQuench s).pfm = s.pfm ∧ (reformQuench s).freeCount = s.freeCount ∧
    (reformQuench s).pending = s.pending := by
  exact ⟨rfl, rfl, rfl, rfl, rfl, rfl, rfl, rfl, rfl, rfl, rfl, rfl⟩

/-- A change of the order queue changes ORD and PFM alone (R162). -/
@[simp] theorem setQueue_frame (q : List Order) (s : State) :
    (setQueue q s).startup = s.startup ∧ (setQueue q s).lif = s.lif ∧ (setQueue q s).pst = s.pst ∧
    (setQueue q s).seq = s.seq ∧ (setQueue q s).spg = s.spg ∧ (setQueue q s).axc = s.axc ∧
    (setQueue q s).cnv = s.cnv ∧ (setQueue q s).slt = s.slt ∧ (setQueue q s).qch = s.qch ∧
    (setQueue q s).freeCount = s.freeCount ∧ (setQueue q s).pending = s.pending := by
  exact ⟨rfl, rfl, rfl, rfl, rfl, rfl, rfl, rfl, rfl, rfl, rfl⟩

/-- An ORDER notice changes LIF alone (R173). -/
@[simp] theorem orderNotice_frame (t : Nat) (r : Status) (k : Option ScanKind) (s : State) :
    (orderNotice t r k s).startup = s.startup ∧ (orderNotice t r k s).pst = s.pst ∧
    (orderNotice t r k s).ord = s.ord ∧ (orderNotice t r k s).seq = s.seq ∧ (orderNotice t r k s).spg = s.spg ∧
    (orderNotice t r k s).axc = s.axc ∧ (orderNotice t r k s).cnv = s.cnv ∧ (orderNotice t r k s).slt = s.slt ∧
    (orderNotice t r k s).qch = s.qch ∧ (orderNotice t r k s).pfm = s.pfm ∧
    (orderNotice t r k s).freeCount = s.freeCount ∧ (orderNotice t r k s).pending = s.pending := by
  exact ⟨rfl, rfl, rfl, rfl, rfl, rfl, rfl, rfl, rfl, rfl, rfl, rfl⟩

/-- A change of holder changes LIF alone (R181, R182). -/
@[simp] theorem setHolder_frame (h : Option Port) (s : State) :
    (setHolder h s).startup = s.startup ∧ (setHolder h s).pst = s.pst ∧ (setHolder h s).ord = s.ord ∧
    (setHolder h s).seq = s.seq ∧ (setHolder h s).spg = s.spg ∧ (setHolder h s).axc = s.axc ∧
    (setHolder h s).cnv = s.cnv ∧ (setHolder h s).slt = s.slt ∧ (setHolder h s).qch = s.qch ∧
    (setHolder h s).pfm = s.pfm ∧ (setHolder h s).freeCount = s.freeCount ∧
    (setHolder h s).pending = s.pending := by
  exact ⟨rfl, rfl, rfl, rfl, rfl, rfl, rfl, rfl, rfl, rfl, rfl, rfl⟩

/-- A delivery of the planned speed changes SPG alone (R26). -/
@[simp] theorem deliverSpeed_frame (v : Nat) (s : State) :
    (deliverSpeed v s).startup = s.startup ∧ (deliverSpeed v s).lif = s.lif ∧ (deliverSpeed v s).pst = s.pst ∧
    (deliverSpeed v s).ord = s.ord ∧ (deliverSpeed v s).seq = s.seq ∧ (deliverSpeed v s).axc = s.axc ∧
    (deliverSpeed v s).cnv = s.cnv ∧ (deliverSpeed v s).slt = s.slt ∧ (deliverSpeed v s).qch = s.qch ∧
    (deliverSpeed v s).pfm = s.pfm ∧ (deliverSpeed v s).freeCount = s.freeCount ∧
    (deliverSpeed v s).pending = s.pending := by
  exact ⟨rfl, rfl, rfl, rfl, rfl, rfl, rfl, rfl, rfl, rfl, rfl, rfl⟩

/-- A NO_TRIM report changes SLT alone (R32). -/
@[simp] theorem reportNoTrim_frame (s : State) :
    (reportNoTrim s).startup = s.startup ∧ (reportNoTrim s).lif = s.lif ∧ (reportNoTrim s).pst = s.pst ∧
    (reportNoTrim s).ord = s.ord ∧ (reportNoTrim s).seq = s.seq ∧ (reportNoTrim s).spg = s.spg ∧
    (reportNoTrim s).axc = s.axc ∧ (reportNoTrim s).cnv = s.cnv ∧ (reportNoTrim s).qch = s.qch ∧
    (reportNoTrim s).pfm = s.pfm ∧ (reportNoTrim s).freeCount = s.freeCount ∧
    (reportNoTrim s).pending = s.pending := by
  unfold reportNoTrim; split <;> simp

/-- A CLAMPED report changes SLT alone (R34). -/
@[simp] theorem reportClamped_frame (b : Bool) (s : State) :
    (reportClamped b s).startup = s.startup ∧ (reportClamped b s).lif = s.lif ∧
    (reportClamped b s).pst = s.pst ∧ (reportClamped b s).ord = s.ord ∧ (reportClamped b s).seq = s.seq ∧
    (reportClamped b s).spg = s.spg ∧ (reportClamped b s).axc = s.axc ∧ (reportClamped b s).cnv = s.cnv ∧
    (reportClamped b s).qch = s.qch ∧ (reportClamped b s).pfm = s.pfm ∧
    (reportClamped b s).freeCount = s.freeCount ∧ (reportClamped b s).pending = s.pending := by
  unfold reportClamped; split <;> simp

/-- The span change of an update changes SPG and AXC alone (R22). -/
@[simp] theorem advanceSpan_frame (s : State) :
    (advanceSpan s).startup = s.startup ∧ (advanceSpan s).lif = s.lif ∧ (advanceSpan s).pst = s.pst ∧
    (advanceSpan s).ord = s.ord ∧ (advanceSpan s).seq = s.seq ∧ (advanceSpan s).cnv = s.cnv ∧
    (advanceSpan s).slt = s.slt ∧ (advanceSpan s).qch = s.qch ∧ (advanceSpan s).pfm = s.pfm ∧
    (advanceSpan s).freeCount = s.freeCount ∧ (advanceSpan s).pending = s.pending := by
  unfold advanceSpan; split
  · simp
  · split <;> simp

/-- A STORE notice changes LIF alone. -/
@[simp] theorem slotNotice_frame (n : Nat) (v : Bool) (s : State) :
    (slotNotice n v s).startup = s.startup ∧ (slotNotice n v s).pst = s.pst ∧ (slotNotice n v s).ord = s.ord ∧
    (slotNotice n v s).seq = s.seq ∧ (slotNotice n v s).spg = s.spg ∧ (slotNotice n v s).axc = s.axc ∧
    (slotNotice n v s).cnv = s.cnv ∧ (slotNotice n v s).slt = s.slt ∧ (slotNotice n v s).qch = s.qch ∧
    (slotNotice n v s).pfm = s.pfm ∧ (slotNotice n v s).freeCount = s.freeCount ∧
    (slotNotice n v s).pending = s.pending := by
  exact ⟨rfl, rfl, rfl, rfl, rfl, rfl, rfl, rfl, rfl, rfl, rfl, rfl⟩

/-- A STORE notice changes LIF alone. -/
@[simp] theorem configNotice_frame (v : Bool) (s : State) :
    (configNotice v s).startup = s.startup ∧ (configNotice v s).pst = s.pst ∧ (configNotice v s).ord = s.ord ∧
    (configNotice v s).seq = s.seq ∧ (configNotice v s).spg = s.spg ∧ (configNotice v s).axc = s.axc ∧
    (configNotice v s).cnv = s.cnv ∧ (configNotice v s).slt = s.slt ∧ (configNotice v s).qch = s.qch ∧
    (configNotice v s).pfm = s.pfm ∧ (configNotice v s).freeCount = s.freeCount ∧
    (configNotice v s).pending = s.pending := by
  exact ⟨rfl, rfl, rfl, rfl, rfl, rfl, rfl, rfl, rfl, rfl, rfl, rfl⟩

/-- A failed write taken by PFM changes LIF and PFM alone. -/
@[simp] theorem storeWriteFault_frame (i : CircuitItem) (s : State) :
    (storeWriteFault i s).startup = s.startup ∧ (storeWriteFault i s).pst = s.pst ∧
    (storeWriteFault i s).ord = s.ord ∧ (storeWriteFault i s).seq = s.seq ∧ (storeWriteFault i s).spg = s.spg ∧
    (storeWriteFault i s).axc = s.axc ∧ (storeWriteFault i s).cnv = s.cnv ∧ (storeWriteFault i s).slt = s.slt ∧
    (storeWriteFault i s).qch = s.qch ∧ (storeWriteFault i s).freeCount = s.freeCount ∧
    (storeWriteFault i s).pending = s.pending := by
  simp [storeWriteFault]

/-- The begin of tracking changes SPG and AXC alone (R48). -/
@[simp] theorem beginTracking_frame (s : State) :
    (beginTracking s).startup = s.startup ∧ (beginTracking s).lif = s.lif ∧ (beginTracking s).pst = s.pst ∧
    (beginTracking s).ord = s.ord ∧ (beginTracking s).seq = s.seq ∧ (beginTracking s).cnv = s.cnv ∧
    (beginTracking s).slt = s.slt ∧ (beginTracking s).qch = s.qch ∧ (beginTracking s).pfm = s.pfm ∧
    (beginTracking s).freeCount = s.freeCount ∧ (beginTracking s).pending = s.pending := by
  exact ⟨rfl, rfl, rfl, rfl, rfl, rfl, rfl, rfl, rfl, rfl, rfl⟩

/-- A free insertion only places its item (log entry 6). -/
theorem freeInsert_perm {α : Type} (a : α) (l : List α) (n : Nat) : (freeInsert a l n).1.Perm (a :: l) := by
  induction l generalizing n with
  | nil => exact .refl _
  | cons b bs ih =>
    unfold freeInsert
    split
    · exact .refl _
    · exact ((ih (n + 1)).cons b).trans (.swap a b bs)

/-- A free order is an order of the same items (log entry 6). -/
theorem freeOrder_perm {α : Type} (l : List α) (n : Nat) : (freeOrder l n).1.Perm l := by
  induction l generalizing n with
  | nil => exact .refl _
  | cons a as ih => exact (freeInsert_perm a _ _).trans ((ih n).cons a)

/-- Events run one after the other keep what each of them keeps. -/
theorem runEvents_keeps {P : State → Prop} (es : List (State → State)) (h : ∀ e ∈ es, ∀ v, P v → P (e v)) (s : State)
    (hs : P s) : P (runEvents es s) := by
  induction es generalizing s with
  | nil => exact hs
  | cons e es ih => exact ih (fun f hf => h f (List.mem_cons_of_mem _ hf)) _ (h e (List.mem_cons_self ..) s hs)

/-- Events in any order keep what each of them keeps (log entry 6). -/
theorem inAnyOrder_keeps {P : State → Prop} (es : List (State → State)) (h : ∀ e ∈ es, ∀ v, P v → P (e v)) (s : State)
    (hs : ∀ n, P (s.setFree n)) : P (inAnyOrder es s) :=
  runEvents_keeps _ (fun e he => h e ((freeOrder_perm es s.freeCount).mem_iff.mp he)) _ (hs _)

/-- Two events in any order: what holds after both orders holds (log entry 6). -/
theorem inAnyOrder_pair {P : State → Prop} (f g : State → State) (s : State) (h₁ : P (g (f s.bumpFree)))
    (h₂ : P (f (g s.bumpFree))) : P (inAnyOrder [f, g] s) := by
  simp only [inAnyOrder, freeOrder, freeInsert]
  split
  · exact h₁
  · exact h₂

end Sys2Proof.Machine
end

