-- ==== Sys2Proof/Laws/Reacts.lean ====
section
/-! SUPPORT. What the reactions inside the part never do: no reaction of the scan, however deep, changes the start-up
mark, the waiting commands, the store, the order queue, the patch slots, the filtered permits or the selector, and it
changes LIF by notices alone. One lemma per operation; later proofs cite the lemma of the outermost one. -/

namespace Sys2Proof.Machine

theorem PortState.NoticesOnly.refl (q : PortState) : q.NoticesOnly q :=
  ⟨[], q.dropped, by simp, by rw [List.append_nil]; omega, by simp⟩

theorem PortState.NoticesOnly.trans {q r v : PortState} (h : q.NoticesOnly r) (g : r.NoticesOnly v) :
    q.NoticesOnly v := by
  obtain ⟨ns, d, hns, hl, rfl⟩ := h
  obtain ⟨ms, e, hms, hk, rfl⟩ := g
  refine ⟨ns ++ ms, e, fun f hf => ?_, ?_, by simp⟩
  · rcases List.mem_append.mp hf with hf | hf
    · exact hns f hf
    · exact hms f hf
  · simp only [List.length_append] at *; omega

/-- A port offered a notice changes by notices alone (R179). -/
theorem PortState.offer_noticesOnly (q : PortState) (k : NoticeKind) (bs : List Byte) :
    q.NoticesOnly (q.offer k bs) := by
  unfold PortState.offer
  split
  · split
    · next h => exact ⟨[⟨0, byteOf k.code, bs⟩], q.dropped, by simp, by simp [txRoom] at *; omega, rfl⟩
    · exact ⟨[], true, by simp, by rw [List.append_nil]; omega, by simp⟩
  · exact ⟨[], q.dropped, by simp, by rw [List.append_nil]; omega, by simp⟩

theorem LifState.NoticesOnly.refl (l : LifState) : l.NoticesOnly l := ⟨rfl, rfl, fun _ => .refl _⟩

theorem LifState.NoticesOnly.trans {l m n : LifState} (h : l.NoticesOnly m) (g : m.NoticesOnly n) :
    l.NoticesOnly n :=
  ⟨g.1.trans h.1, g.2.1.trans h.2.1, fun p => (h.2.2 p).trans (g.2.2 p)⟩

/-- A notice changes LIF by notices alone (R179). -/
theorem notice_noticesOnly (k : NoticeKind) (bs : List Byte) (s : State) :
    s.lif.NoticesOnly (notice k bs s).lif := by
  refine ⟨rfl, rfl, fun p => ?_⟩
  cases p
  · exact PortState.offer_noticesOnly _ _ _
  · exact PortState.offer_noticesOnly _ _ _

/-- What a reaction inside the part keeps. -/
structure Reacts (s t : State) : Prop where
  startup : t.startup = s.startup
  pending : t.pending = s.pending
  pst : t.pst = s.pst
  ord : t.ord = { s.ord with summary := t.ord.summary }
  pfm : t.pfm =
    { s.pfm with
      firstFault := t.pfm.firstFault, counts := t.pfm.counts, lampReady := t.pfm.lampReady,
      lampFault := t.pfm.lampFault, lampPhase := t.pfm.lampPhase, resultGood := t.pfm.resultGood,
      resultReject := t.pfm.resultReject }
  kind : t.seq.kind = s.seq.kind
  startSelector : t.seq.startSelector = s.seq.startSelector
  clock : t.seq.clock = s.seq.clock
  lif : s.lif.NoticesOnly t.lif

namespace Reacts

variable {s u t : State}

theorem refl (s : State) : Reacts s s := ⟨rfl, rfl, rfl, rfl, rfl, rfl, rfl, rfl, .refl _⟩

theorem trans (h : Reacts s u) (g : Reacts u t) : Reacts s t where
  startup := g.startup.trans h.startup
  pending := g.pending.trans h.pending
  pst := g.pst.trans h.pst
  ord := by rw [g.ord, h.ord]
  pfm := by rw [g.pfm, h.pfm]
  kind := g.kind.trans h.kind
  startSelector := g.startSelector.trans h.startSelector
  clock := g.clock.trans h.clock
  lif := h.lif.trans g.lif

theorem bumpFree (h : Reacts s u) : Reacts s u.bumpFree := { h with }
theorem setFree (n : Nat) (h : Reacts s u) : Reacts s (u.setFree n) := { h with }
theorem onSpg (f : SpgState → SpgState) (h : Reacts s u) : Reacts s (u.onSpg f) := { h with }
theorem onAxc (f : AxcState → AxcState) (h : Reacts s u) : Reacts s (u.onAxc f) := { h with }
theorem onCnv (f : CnvState → CnvState) (h : Reacts s u) : Reacts s (u.onCnv f) := { h with }
theorem onSlt (f : SltState → SltState) (h : Reacts s u) : Reacts s (u.onSlt f) := { h with }
theorem onQch (f : QchState → QchState) (h : Reacts s u) : Reacts s (u.onQch f) := { h with }

/-- SEQ's other items change. -/
theorem onSeq (f : SeqState → SeqState)
    (hf : ∀ q : SeqState, (f q).kind = q.kind ∧ (f q).startSelector = q.startSelector ∧ (f q).clock = q.clock)
    (h : Reacts s u) : Reacts s (u.onSeq f) :=
  { h with
    kind := (hf _).1.trans h.kind
    startSelector := (hf _).2.1.trans h.startSelector
    clock := (hf _).2.2.trans h.clock }

theorem notice (k : NoticeKind) (bs : List Byte) (h : Reacts s u) : Reacts s (notice k bs u) :=
  h.trans { refl u with lif := notice_noticesOnly k bs u }

theorem reformLamps (h : Reacts s u) : Reacts s (reformLamps u) :=
  h.trans { refl u with pfm := rfl }

theorem announce (prev : ScanState) (r : Option ScanResult) (h : Reacts s u) : Reacts s (announce prev r u) :=
  .notice _ _ (.reformLamps h)

theorem pfmTake (r : FaultReport) (h : Reacts s u) : Reacts s (pfmTake r u) := by
  unfold Machine.pfmTake
  refine .notice _ _ (.trans (u := if u.pfm.firstFault.isNone = true then _ else _) ?_ { refl _ with pfm := rfl })
  split
  · exact .reformLamps (h.trans { refl u with pfm := rfl })
  · exact h

theorem deliverPower (n : Nat) (h : Reacts s u) : Reacts s (deliverPower n u) :=
  h.trans (.onCnv (fun c => c.deliver n (dacCode n u.config.rating)) (.onSpg _ (refl u)))

theorem forceZero (h : Reacts s u) : Reacts s (forceZero u) := .deliverPower 0 h
theorem dropPending (h : Reacts s u) : Reacts s (dropPending u) := .onSpg _ h
theorem endHeat (h : Reacts s u) : Reacts s (endHeat u) := .dropPending (.forceZero h)
theorem activateSpan (i : Nat) (h : Reacts s u) : Reacts s (activateSpan i u) := .onAxc _ (.onSpg _ h)
theorem reformQuench (h : Reacts s u) : Reacts s (reformQuench u) := .onQch _ h

theorem derateCut (h : Reacts s u) : Reacts s (derateCut u) := by
  unfold Machine.derateCut
  split
  · exact .deliverPower _ h
  · exact h

theorem writeSummary (r : ScanResult) (h : Reacts s u) : Reacts s (writeSummary r u) :=
  h.trans { refl u with ord := rfl, pfm := by cases r <;> rfl }

theorem sliceNotice (k : Nat) (h : Reacts s u) : Reacts s (sliceNotice k u) := by
  unfold Machine.sliceNotice
  split
  · exact h
  · split
    · exact h
    · exact .notice _ _ h

theorem sliceNotices (ks : List Nat) (h : Reacts s u) : Reacts s (sliceNotices ks u) := by
  induction ks generalizing u with
  | nil => exact h
  | cons k ks ih => exact ih (.sliceNotice k h)

theorem markFlood (h : Reacts s u) : Reacts s (markFlood u) := .sliceNotices _ (.onSlt _ h)
theorem markStop (h : Reacts s u) : Reacts s (markStop u) := .sliceNotices _ (.onSlt _ h)

/-- Reactions in any order. -/
theorem inAnyOrder (es : List (State → State)) (he : ∀ e ∈ es, ∀ v, Reacts v (e v)) (h : Reacts s u) :
    Reacts s (inAnyOrder es u) :=
  inAnyOrder_keeps es (fun e m v k => k.trans (he e m v)) u (fun n => h.setFree n)

theorem enterHalted (h : Reacts s u) : Reacts s (enterHalted u) :=
  .announce _ _ (.writeSummary _ (.reformQuench (.onAxc _ (.onCnv _ (.endHeat (.onSeq _ (fun _ => ⟨rfl, rfl, rfl⟩) h))))))

theorem stopAction (h : Reacts s u) : Reacts s (stopAction u) := .enterHalted (.markStop h)

theorem enterFlood (h : Reacts s u) : Reacts s (enterFlood u) :=
  .announce _ _ (.reformQuench (.onAxc _ (.onCnv _ (.endHeat (.onSeq _ (fun _ => ⟨rfl, rfl, rfl⟩) (.markFlood h))))))

theorem enterComplete (h : Reacts s u) : Reacts s (enterComplete u) :=
  .announce _ _ (.onSeq _ (fun _ => ⟨rfl, rfl, rfl⟩) (.announce _ _ (.onAxc _ (.reformQuench (.writeSummary _
    (.onSeq _ (fun _ => ⟨rfl, rfl, rfl⟩) h))))))

theorem enterSoak (h : Reacts s u) : Reacts s (enterSoak u) := by
  unfold Machine.enterSoak
  have k : Reacts s _ := .announce u.seq.scanState none (.reformQuench (.onAxc (fun a => a.controlledStop.rotationOff)
    (.onSeq (fun q => { q with scanState := .soak, timer := some u.profile.header.soakTime })
      (fun _ => ⟨rfl, rfl, rfl⟩) h)))
  dsimp only
  split
  · exact .enterComplete k
  · exact k

theorem beginHolding (h : Reacts s u) : Reacts s (beginHolding u) := by
  unfold Machine.beginHolding
  have k : Reacts s _ := .onSeq (fun q => { q with phase := some .holding, timer := some u.profile.header.soakTime })
    (fun _ => ⟨rfl, rfl, rfl⟩) h
  dsimp only
  split <;> split
  · exact .enterHalted (.reformQuench k)
  · exact .enterHalted (.reformQuench (.onAxc _ k))
  · exact .reformQuench k
  · exact .reformQuench (.onAxc _ k)

theorem drained (h : Reacts s u) : Reacts s (drained u) := by
  unfold Machine.drained
  split
  · exact .enterSoak h
  · split
    · exact .beginHolding h
    · exact h
  all_goals exact h

theorem record (q : SeqState) (c : Cause) (act : AbortAction) :
    (q.record c act).kind = q.kind ∧ (q.record c act).startSelector = q.startSelector
      ∧ (q.record c act).clock = q.clock := by
  unfold SeqState.record
  split <;> exact ⟨rfl, rfl, rfl⟩

theorem judgeWith (f : State → State) (hf : ∀ v, Reacts v (f v)) (c : Cause) (h : Reacts s u) :
    Reacts s (judgeWith f c u) := by
  unfold Machine.judgeWith
  split
  · exact h
  · rename_i act _
    have k : Reacts s _ := .onSeq (fun q => q.record c act) (fun q => record q c act) h
    split
    · exact k.trans (hf _)
    · exact .enterFlood k
    · exact .stopAction k

theorem raiseAllWith (f : State → State) (hf : ∀ v, Reacts v (f v)) (rs : List Raised) (h : Reacts s u) :
    Reacts s (raiseAllWith f rs u) := by
  refine .inAnyOrder _ (fun e he v => ?_) h
  obtain ⟨r, -, hr⟩ := List.mem_flatMap.mp he
  simp only [Raised.events, List.mem_cons, List.not_mem_nil, or_false] at hr
  rcases hr with rfl | rfl
  · exact .judgeWith f hf _ (.refl v)
  · exact .pfmTake _ (.refl v)

theorem raiseBlockedWith (f : State → State) (hf : ∀ v, Reacts v (f v)) (b : Option LimitSwitch) (h : Reacts s u) :
    Reacts s (raiseBlockedWith f b u) := by
  cases b
  · exact h
  · exact .raiseAllWith f hf _ (.onAxc _ h)

theorem enterQuenchOut (h : Reacts s u) : Reacts s (enterQuenchOut u) := by
  unfold Machine.enterQuenchOut
  dsimp only
  split
  · exact .beginHolding (.announce _ _ (.reformQuench (.onAxc _ (.onCnv _ (.endHeat
      (.onSeq _ (fun _ => ⟨rfl, rfl, rfl⟩) (.onSlt _ h)))))))
  · exact .raiseBlockedWith _ (fun v => .refl v) _ (.announce _ _ (.reformQuench (.onAxc _ (.onCnv _ (.endHeat
      (.onSeq _ (fun _ => ⟨rfl, rfl, rfl⟩) (.onSlt _ h)))))))

theorem judge (c : Cause) (h : Reacts s u) : Reacts s (judge c u) := .judgeWith _ (fun v => .enterQuenchOut (.refl v)) c h

theorem raiseAll (rs : List Raised) (h : Reacts s u) : Reacts s (raiseAll rs u) :=
  .raiseAllWith _ (fun v => .enterQuenchOut (.refl v)) rs h

theorem raiseCause (c : Cause) (i : CircuitItem) (h : Reacts s u) : Reacts s (raiseCause c i u) := .raiseAll _ h

theorem raiseTravels (rs : List Raised) (h : Reacts s u) : Reacts s (raiseTravels rs u) := .raiseAll _ (.onAxc _ h)

theorem raiseTravel (c : Cause) (i : CircuitItem) (h : Reacts s u) : Reacts s (raiseTravel c i u) := .raiseTravels _ h

theorem raiseBlocked (b : Option LimitSwitch) (h : Reacts s u) : Reacts s (raiseBlocked b u) :=
  .raiseBlockedWith _ (fun v => .enterQuenchOut (.refl v)) b h

theorem raiseConverter (c : Cause) (h : Reacts s u) : Reacts s (raiseConverter c u) := .raiseCause _ _ (.onCnv _ h)

theorem enterRunout (h : Reacts s u) : Reacts s (enterRunout u) :=
  .announce _ _ (.reformQuench (.onAxc _ (.onCnv _ (.endHeat (.onSeq _ (fun _ => ⟨rfl, rfl, rfl⟩) h)))))

theorem enterDwell (j : Nat) (h : Reacts s u) : Reacts s (enterDwell j u) :=
  .announce _ _ (.reformQuench (.onSlt _ (.activateSpan _ (.onSeq _ (fun _ => ⟨rfl, rfl, rfl⟩) h))))

theorem beginTracking (h : Reacts s u) : Reacts s (beginTracking u) := .onAxc _ (.onSpg _ h)

theorem leaveDwell (h : Reacts s u) : Reacts s (leaveDwell u) :=
  .raiseBlocked _ (.announce _ _ (.reformQuench (.beginTracking (.onSeq _ (fun _ => ⟨rfl, rfl, rfl⟩) h))))

theorem seqEnterHeat (q : SeqState) (d : Nat) :
    (q.enterHeat d).kind = q.kind ∧ (q.enterHeat d).startSelector = q.startSelector ∧ (q.enterHeat d).clock = q.clock := by
  unfold SeqState.enterHeat
  split <;> exact ⟨rfl, rfl, rfl⟩

theorem entryToHeat (h : Reacts s u) : Reacts s (entryToHeat u) := by
  unfold Machine.entryToHeat
  have k : Reacts s _ := .activateSpan 0 (.forceZero (.onSpg SpgState.atHeat
    (.onSeq (fun q => q.enterHeat (u.profile.vertex 0).plan.dwell) (fun q => seqEnterHeat q _) h)))
  dsimp only
  split
  · exact .raiseBlocked _ (.announce _ _ (.reformQuench (.onQch _ (.onSlt _ k))))
  · exact .raiseBlocked _ (.announce _ _ (.reformQuench (.beginTracking (.onQch _ (.onSlt _ k)))))

theorem converterOn (h : Reacts s u) : Reacts s (converterOn u) := by
  unfold Machine.converterOn
  split
  · dsimp only
    split
    · exact .entryToHeat (.onCnv _ h)
    · exact .onCnv _ h
  · exact h

theorem enterIgnite (h : Reacts s u) : Reacts s (enterIgnite u) :=
  .converterOn (.onCnv _ (.announce _ _ (.reformQuench (.onSeq _ (fun _ => ⟨rfl, rfl, rfl⟩) h))))

theorem endOfApproach (h : Reacts s u) : Reacts s (endOfApproach u) := by
  unfold Machine.endOfApproach
  dsimp only
  split
  · exact .enterIgnite (.onAxc _ h)
  · exact .entryToHeat (.onAxc _ h)

theorem examineApproach (h : Reacts s u) : Reacts s (examineApproach u) := by
  unfold Machine.examineApproach
  split
  · exact .endOfApproach h
  · exact h

end Reacts

end Sys2Proof.Machine
end

