-- ==== Sys2Proof/Laws/Notices.lean ====
section
/-! SUPPORT. Which notices each shared operation builds (R179): `Notified` composes along the operations of an event, and
one lemma per operation names its notices. Later proofs chain these and never unfold a port. -/

namespace Sys2Proof.Machine

/-! ### How notices compose -/

@[simp] theorem PortState.offerAll_nil (q : PortState) : q.offerAll [] = q := rfl

@[simp] theorem PortState.offerAll_cons (q : PortState) (n : Notice) (ns : List Notice) :
    q.offerAll (n :: ns) = (q.offer n.1 n.2).offerAll ns := rfl

theorem PortState.offerAll_append (q : PortState) (ns ms : List Notice) :
    q.offerAll (ns ++ ms) = (q.offerAll ns).offerAll ms := by
  simp [PortState.offerAll, List.foldl_append]

@[simp] theorem payloads_nil (k : NoticeKind) : payloads k [] = [] := rfl

@[simp] theorem payloads_cons (k : NoticeKind) (n : Notice) (ns : List Notice) :
    payloads k (n :: ns) = if n.1 = k then n.2 :: payloads k ns else payloads k ns := by
  by_cases h : n.1 = k <;> simp [payloads, h]

@[simp] theorem payloads_append (k : NoticeKind) (ns ms : List Notice) :
    payloads k (ns ++ ms) = payloads k ns ++ payloads k ms := by
  simp [payloads]

/-- LIF kept means no notice. -/
theorem Notified.of_lif {s t : State} (h : t.lif = s.lif) : Notified [] s t := by
  refine ⟨by rw [h], by rw [h], fun p => by rw [h]; rfl⟩

theorem Notified.refl (s : State) : Notified [] s s := .of_lif rfl

theorem Notified.trans {ns ms : List Notice} {s t u : State} (h : Notified ns s t) (g : Notified ms t u) :
    Notified (ns ++ ms) s u :=
  ⟨g.1.trans h.1, g.2.1.trans h.2.1, fun p => by rw [PortState.offerAll_append, ← h.2.2 p]; exact g.2.2 p⟩

/-- Only LIF matters to the notices built. -/
theorem Notified.congr {ns : List Notice} {s s' t t' : State} (h : Notified ns s t) (hs : s'.lif = s.lif)
    (ht : t'.lif = t.lif) : Notified ns s' t' := by
  obtain ⟨a, b, c⟩ := h
  exact ⟨by rw [ht, hs, a], by rw [ht, hs, b], fun p => by rw [ht, hs]; exact c p⟩

/-- Notices one after the other are notices alone (R179). -/
theorem PortState.offerAll_noticesOnly (q : PortState) (ns : List Notice) : q.NoticesOnly (q.offerAll ns) := by
  induction ns generalizing q with
  | nil => exact .refl q
  | cons n ns ih => exact (q.offer_noticesOnly n.1 n.2).trans (ih _)

theorem Notified.noticesOnly {ns : List Notice} {s t : State} (h : Notified ns s t) : s.lif.NoticesOnly t.lif :=
  ⟨h.1, h.2.1, fun p => by rw [h.2.2 p]; exact PortState.offerAll_noticesOnly _ _⟩

/-! ### What each operation builds -/

/-- A notice is offered to each port (R179). -/
theorem notice_notified (k : NoticeKind) (bs : List Byte) (s : State) : Notified [(k, bs)] s (notice k bs s) :=
  ⟨rfl, rfl, fun p => by cases p <;> rfl⟩

/-- A change of scan state builds its STATE notice (R43). -/
theorem announce_notified (prev : ScanState) (r : Option ScanResult) (s : State) :
    Notified [(.state, stateNoticePayload (announce prev r s).seq prev r)] s (announce prev r s) :=
  (notice_notified _ _ (reformLamps s)).congr rfl rfl

/-- PFM taking a fault builds its FAULT notice, after the count (R150, R153). -/
theorem pfmTake_notified (r : FaultReport) (s : State) :
    Notified [(.fault, faultNoticePayload r s.seq.clock ((pfmTake r s).pfm.count r.kind) s.pfm.firstFault.isNone)] s
      (pfmTake r s) := by
  unfold pfmTake
  cases s.pfm.firstFault <;> exact (notice_notified _ _ _).congr rfl rfl

/-- The SLICE notice of a slice, where it carries a flag (R92). -/
def sliceNoticeOf (s : State) (k : Nat) : List Notice :=
  match s.slt.slice? k with
  | none => []
  | some r => if r.flags = 0 then [] else [(.slice, sliceNoticePayload k s.seq.clock r)]

theorem sliceNotice_notified (k : Nat) (s : State) : Notified (sliceNoticeOf s k) s (sliceNotice k s) := by
  unfold sliceNotice sliceNoticeOf
  cases s.slt.slice? k with
  | none => exact .refl s
  | some r =>
    dsimp only
    split
    · exact .refl s
    · exact notice_notified _ _ s

theorem sliceNoticeOf_congr {s t : State} (hl : t.slt = s.slt) (hq : t.seq = s.seq) (k : Nat) :
    sliceNoticeOf t k = sliceNoticeOf s k := by
  unfold sliceNoticeOf; rw [hl, hq]

/-- The SLICE notices of several slices, in turn (R90 to R92). -/
theorem sliceNotices_notified (ks : List Nat) (s : State) :
    Notified (ks.flatMap (sliceNoticeOf s)) s (sliceNotices ks s) := by
  induction ks generalizing s with
  | nil => exact .refl s
  | cons k ks ih =>
    have h := (sliceNotice_notified k s).trans (ih (sliceNotice k s))
    have e : sliceNoticeOf (sliceNotice k s) = sliceNoticeOf s :=
      funext (sliceNoticeOf_congr (by simp) (by simp))
    rw [e] at h
    simpa [sliceNotices] using h

/-- An ORDER notice (R173). -/
theorem orderNotice_notified (tag : Nat) (st : Status) (kind : Option ScanKind) (s : State) :
    Notified [(.order, beBytes 2 tag ++ [byteOf st.code, byteOf s.ord.queue.length] ++ beOpt 1 (kind.map ScanKind.code))] s
      (orderNotice tag st kind s) :=
  notice_notified _ _ s

/-! ### Every payload as the statements read it, by position -/

@[simp] theorem byteOf_toNat (v : Nat) : (byteOf v).toNat = v % 256 := by simp [byteOf]

theorem beOpt_one (o : Option Nat) : beOpt 1 o = [byteOf (o.getD 255)] := by
  cases o with
  | none => rfl
  | some v => simp [beOpt, beBytes]

theorem beBytes_two (v : Nat) : beBytes 2 v = [byteOf (v / 256), byteOf v] := by
  simp [beBytes, Nat.shiftRight_eq_div_pow]

theorem beBytes_four (v : Nat) :
    beBytes 4 v = [byteOf (v / 16777216), byteOf (v / 65536), byteOf (v / 256), byteOf v] := by
  simp [beBytes, Nat.shiftRight_eq_div_pow]

theorem ScanState.code_lt (st : ScanState) : st.code < 256 := by cases st <;> decide
theorem ScanKind.code_lt (k : ScanKind) : k.code < 256 := by cases k <;> decide
theorem Cause.code_lt (c : Cause) : c.code < 256 := by cases c <;> decide
theorem AbortAction.code_lt (a : Option AbortAction) : AbortAction.code a < 256 := by
  rcases a with _ | (_ | _ | _) <;> decide
theorem ScanResult.code_lt (r : ScanResult) : r.code < 256 := by cases r <;> decide
theorem SlotState.code_lt (s : SlotState) : s.code < 256 := by cases s <;> decide
theorem Selector.code_lt (s : Selector) : s.code < 256 := by cases s <;> decide

theorem getD_map_lt {α : Type} {f : α → Nat} (h : ∀ a, f a < 256) (o : Option α) : (o.map f).getD 255 < 256 := by
  cases o with
  | none => exact (by decide : 255 < 256)
  | some a => exact h a

/-- The STATE notice as SEQ builds it reads as Table 11-11 says. -/
theorem stateNotice_payload (q : SeqState) (prev : ScanState) (r : Option ScanResult) :
    StateNotice q.scanState prev q r (stateNoticePayload q prev r) := by
  have h1 := getD_map_lt Cause.code_lt q.abortCause
  have h2 := getD_map_lt ScanState.code_lt q.abortState
  have h3 := getD_map_lt Cause.code_lt q.escalation
  have h4 := getD_map_lt ScanResult.code_lt r
  simp only [StateNotice, stateNoticePayload, beOpt_one, beBytes_four, List.cons_append, List.nil_append, field, beNat,
    List.drop_succ_cons, List.drop_zero, List.take_succ_cons, List.take_zero, List.foldl_cons, List.foldl_nil,
    byteOf_toNat, List.length_cons, List.length_nil, Nat.zero_mul, Nat.zero_add]
  refine ⟨trivial, Nat.mod_eq_of_lt (ScanState.code_lt _), Nat.mod_eq_of_lt (ScanState.code_lt _),
    Nat.mod_eq_of_lt (ScanKind.code_lt _), by omega, trivial, Nat.mod_eq_of_lt h1,
    Nat.mod_eq_of_lt (AbortAction.code_lt _), Nat.mod_eq_of_lt h2, Nat.mod_eq_of_lt h3, Nat.mod_eq_of_lt h4⟩

/-- The FAULT notice as PFM builds it reads as Table 11-11 says. -/
theorem faultNotice_payload (r : FaultReport) (clock count : Nat) (captured : Bool) :
    FaultNotice r.kind r.item r.scanState clock count captured (faultNoticePayload r clock count captured) := by
  simp only [FaultNotice, faultNoticePayload, beBytes_four, List.cons_append, List.nil_append, field, beNat,
    List.drop_succ_cons, List.drop_zero, List.take_succ_cons, List.take_zero, List.foldl_cons, List.foldl_nil,
    byteOf_toNat, List.length_cons, List.length_nil, Nat.zero_mul, Nat.zero_add]
  refine ⟨trivial, Nat.mod_eq_of_lt (Cause.code_lt _), trivial, Nat.mod_eq_of_lt (ScanState.code_lt _), by omega, trivial, ?_⟩
  cases captured <;> rfl

theorem beInt16_two (v : Int) : beInt16 v = [byteOf ((v % 65536).toNat / 256), byteOf (v % 65536).toNat] :=
  beBytes_two _

theorem bitsByte_three (a b d : Bool) : (bitsByte [a, b, d]).getLsbD 0 = a ∧ (bitsByte [a, b, d]).getLsbD 1 = b
    ∧ (bitsByte [a, b, d]).getLsbD 2 = d := by
  revert a b d; decide

/-- The SLICE notice as SLT builds it reads as Table 11-11 says. -/
theorem sliceNotice_payload (k clock : Nat) (r : SliceRec) : SliceNotice k clock r (sliceNoticePayload k clock r) := by
  have hf := r.flags.isLt
  have ht : limited top16 r.transferTime = min 65535 (r.transferTime.getD 0) := rfl
  have hd : (r.deviation.getD 0 % 65536).toNat < 65536 := by omega
  simp only [SliceNotice, sliceNoticePayload, beBytes_two, beBytes_four, beInt16_two, ht, List.cons_append,
    List.nil_append, field, beNat, List.drop_succ_cons, List.drop_zero, List.take_succ_cons, List.take_zero,
    List.foldl_cons, List.foldl_nil, byteOf_toNat, List.length_cons, List.length_nil, Nat.zero_mul, Nat.zero_add]
  obtain ⟨b0, b1, b2⟩ := bitsByte_three r.specific.isSome r.deviation.isSome r.transferTime.isSome
  exact ⟨trivial, by omega, by omega, b0, b1, b2, by omega, by omega, by omega, by omega⟩

/-! ### The notices of a move between scan states -/

theorem payloads_slices (s : State) (ks : List Nat) : payloads .state (ks.flatMap (sliceNoticeOf s)) = [] := by
  induction ks with
  | nil => rfl
  | cons k ks ih =>
    rw [List.flatMap_cons, payloads_append, ih, List.append_nil]
    unfold sliceNoticeOf
    split
    · rfl
    · split <;> rfl

theorem enterHalted_seq (s : State) : (enterHalted s).seq =
    { s.seq with scanState := .halted, dwellVertex := none, timer := none, phase := none } := by
  simp [enterHalted]

/-- Entry to HALTED builds its STATE notice with the result ABORTED (R43, R54). -/
theorem enterHalted_move (s : State) : StateMove .halted s.seq.scanState (some .aborted) s (enterHalted s) := by
  refine ⟨_, ((announce_notified _ _ _).congr ?_ rfl : Notified _ s (enterHalted s)), ?_⟩
  · simp
  · have h := stateNotice_payload (enterHalted s).seq s.seq.scanState (some .aborted)
    rw [enterHalted_seq] at h ⊢
    simpa using h

theorem enterFlood_seq (s : State) : (enterFlood s).seq =
    { s.seq with scanState := .flood, dwellVertex := none, timer := some s.config.floodTime, phase := none } := by
  simp [enterFlood, State.config]

/-- What judging a cause builds: SLICE notices of a marking, and the STATE notices of the moves (R43, R92). -/
def AbortNotices (q r : SeqState) (ns : List Notice) : Prop :=
  (∀ n ∈ ns, n.1 = .slice ∨ n.1 = .state) ∧ AbortAnnounced q r (payloads .state ns)

theorem kinds_slices (s : State) (ks : List Nat) : ∀ n ∈ ks.flatMap (sliceNoticeOf s), n.1 = .slice := by
  intro n hn
  obtain ⟨k, -, h⟩ := List.mem_flatMap.mp hn
  unfold sliceNoticeOf at h
  split at h
  · cases h
  · split at h
    · cases h
    · rw [List.mem_singleton.mp h]

/-- A marking builds SLICE notices alone (R90 to R92). -/
theorem markFlood_notified (s : State) : ∃ ns, Notified ns s (markFlood s) ∧ (∀ n ∈ ns, n.1 = .slice)
    ∧ payloads .state ns = [] :=
  ⟨_, (Notified.of_lif (t := s.onSlt _) rfl).trans (sliceNotices_notified _ _), kinds_slices _ _, payloads_slices _ _⟩

theorem markStop_notified (s : State) : ∃ ns, Notified ns s (markStop s) ∧ (∀ n ∈ ns, n.1 = .slice)
    ∧ payloads .state ns = [] :=
  ⟨_, (Notified.of_lif (t := s.onSlt _) rfl).trans (sliceNotices_notified _ _), kinds_slices _ _, payloads_slices _ _⟩

/-- A marking followed by one STATE notice. -/
theorem AbortNotices.marked {ns : List Notice} {q r : SeqState} {c : List Byte} (hk : ∀ n ∈ ns, n.1 = .slice)
    (hs : payloads .state ns = []) (hr : AbortAnnounced q r [c]) : AbortNotices q r (ns ++ [(.state, c)]) := by
  refine ⟨fun n hn => ?_, by simpa [hs] using hr⟩
  rcases List.mem_append.mp hn with h | h
  · exact .inl (hk n h)
  · exact .inr (by rw [List.mem_singleton.mp h])

/-- Entry to FLOOD builds the SLICE notices of the marking and its STATE notice (R43, R61, R92). -/
theorem enterFlood_notices (s : State) (h : s.seq.scanState ≠ .flood) :
    ∃ ns, Notified ns s (enterFlood s) ∧ AbortNotices s.seq (enterFlood s).seq ns := by
  obtain ⟨ns, hn, hk, hs⟩ := markFlood_notified s
  refine ⟨_, hn.trans ((announce_notified s.seq.scanState none _).congr ?_ rfl), .marked hk hs ?_⟩
  · simp
  · rw [AbortAnnounced, if_neg (by rw [enterFlood_seq]; exact Ne.symm h),
      if_neg (by rw [enterFlood_seq]; exact fun e => nomatch e.1)]
    refine ⟨_, rfl, ?_⟩
    have g := stateNotice_payload (enterFlood s).seq s.seq.scanState none
    rw [enterFlood_seq] at g ⊢
    simpa [State.config] using g

/-- The STOP action builds the SLICE notices of the marking and the STATE notice of HALTED (R43, R62, R92). -/
theorem stopAction_notices (s : State) (h : s.seq.scanState ≠ .halted) (ha : s.seq.abortAction ≠ some .quenchOut) :
    ∃ ns, Notified ns s (stopAction s) ∧ AbortNotices s.seq (stopAction s).seq ns := by
  obtain ⟨ns, hn, hk, hs⟩ := markStop_notified s
  obtain ⟨c, hc, hp⟩ := enterHalted_move (markStop s)
  have e : (stopAction s).seq =
      { s.seq with scanState := .halted, dwellVertex := none, timer := none, phase := none } := by
    simp [stopAction, enterHalted_seq]
  refine ⟨_, hn.trans hc, .marked hk hs ?_⟩
  rw [AbortAnnounced, if_neg (by rw [e]; exact Ne.symm h), if_neg (by rw [e]; exact fun f => ha f.2)]
  refine ⟨_, rfl, ?_⟩
  rw [e] at *
  rw [if_pos rfl]
  rw [enterHalted_seq] at hp
  simpa using hp

theorem beginHolding_zero (s : State) (h : s.profile.header.soakTime = 0) :
    ∃ u : State, u.lif = s.lif ∧ u.seq = { s.seq with phase := some .holding, timer := some 0 }
      ∧ beginHolding s = enterHalted u := by
  unfold beginHolding
  simp only [h, if_true]
  refine ⟨_, ?_, ?_, rfl⟩ <;> split <;> simp

/-- The holding of QUENCH_OUT with a holding time builds no notice (R43, R60). -/
theorem beginHolding_lif (s : State) (h : s.profile.header.soakTime ≠ 0) : (beginHolding s).lif = s.lif
    ∧ (beginHolding s).seq =
      { s.seq with phase := some .holding, timer := some s.profile.header.soakTime } := by
  unfold beginHolding
  simp only [h, if_false]
  split <;> simp

/-- Entry to QUENCH_OUT up to its STATE notice, before it begins its holding or its rise (R59, R60). -/
def quenchOutEntered (s : State) : State :=
  let t := s.onSlt fun t => t.markQuenchOut s.seq.clock
  let t := t.onSeq fun q =>
    { q with
      scanState := .quenchOut, dwellVertex := none, timer := none
      phase := if t.slt.transit.isEmpty then some .holding else some .draining }
  let t := (endHeat t).onCnv CnvState.stop
  let t := t.onAxc fun a => if s.seq.scanState = .soak then a.settle else a.trackHold
  announce s.seq.scanState none (reformQuench t)

theorem enterQuenchOut_eq (s : State) : enterQuenchOut s =
    if (s.slt.markQuenchOut s.seq.clock).transit.isEmpty then beginHolding (quenchOutEntered s)
    else raiseBlockedWith id (if s.seq.scanState = .soak then none else s.axc.trackBlocked) (quenchOutEntered s) := rfl

theorem quenchOutEntered_seq (s : State) : (quenchOutEntered s).seq =
    { s.seq with
      scanState := .quenchOut, dwellVertex := none, timer := none
      phase := if (s.slt.markQuenchOut s.seq.clock).transit.isEmpty then some .holding else some .draining } := by
  simp [quenchOutEntered]

theorem quenchOutEntered_notified (s : State) :
    Notified [(.state, stateNoticePayload (quenchOutEntered s).seq s.seq.scanState none)] s (quenchOutEntered s) := by
  unfold quenchOutEntered
  exact (announce_notified _ _ _).congr (by simp) rfl

/-- Entry to QUENCH_OUT whose rise is not forbidden builds its STATE notice, and that of HALTED where it holds for no time
(R43, R59, R60). -/
theorem enterQuenchOut_notices (s : State) (h : s.seq.scanState ≠ .quenchOut) (hh : s.seq.scanState ≠ .halted)
    (ha : s.seq.abortAction = some .quenchOut)
    (hb : s.seq.scanState = .soak ∨ s.axc.trackBlocked = none ∨ (s.slt.transit = [] ∧ s.slt.underCoil = none)) :
    ∃ ns, Notified ns s (enterQuenchOut s) ∧ AbortNotices s.seq (enterQuenchOut s).seq ns := by
  have e : enterQuenchOut s = beginHolding (quenchOutEntered s) ∨ enterQuenchOut s = quenchOutEntered s := by
    rw [enterQuenchOut_eq]
    split
    · exact .inl rfl
    · next hne =>
      right
      have b : (if s.seq.scanState = .soak then none else s.axc.trackBlocked) = none := by
        split
        · rfl
        · rcases hb with hb | hb | ⟨ht, hu⟩
          · contradiction
          · exact hb
          · exact absurd (by simp [SltState.markQuenchOut, ht, hu]) hne
      rw [b]; rfl
  have hn := quenchOutEntered_notified s
  have hp := stateNotice_payload (quenchOutEntered s).seq s.seq.scanState none
  obtain ⟨ph, hq⟩ : ∃ ph, (quenchOutEntered s).seq =
      { s.seq with scanState := .quenchOut, dwellVertex := none, timer := none, phase := ph } :=
    ⟨_, quenchOutEntered_seq s⟩
  revert e hn hp hq
  generalize quenchOutEntered s = u
  intro e hn hp hq
  rw [hq] at hn hp
  have kept : ∀ t : State, Notified [] u t →
      (∃ ph tm, t.seq = { s.seq with scanState := .quenchOut, dwellVertex := none, timer := tm, phase := ph }) →
      ∃ ns, Notified ns s t ∧ AbortNotices s.seq t.seq ns := by
    rintro t ht ⟨ph', tm, hs⟩
    refine ⟨_, hn.trans ht, by simp, ?_⟩
    rw [hs, AbortAnnounced, if_neg (Ne.symm h), if_neg (fun f => nomatch f.1)]
    exact ⟨_, rfl, hp⟩
  rcases e with e | e
  · by_cases z : u.profile.header.soakTime = 0
    · obtain ⟨v, hl, hv, hz⟩ := beginHolding_zero u z
      obtain ⟨c, hc, hm⟩ := enterHalted_move v
      have es : (enterQuenchOut s).seq =
          { s.seq with scanState := .halted, dwellVertex := none, timer := none, phase := none } := by
        rw [e, hz, enterHalted_seq, hv, hq]
      refine ⟨_, hn.trans (e ▸ hz ▸ hc.congr hl.symm rfl), by simp, ?_⟩
      rw [es, AbortAnnounced, if_neg (Ne.symm hh), if_pos ⟨rfl, ha⟩]
      refine ⟨_, _, rfl, hp, ?_⟩
      rw [enterHalted_seq, hv, hq] at hm
      exact hm
    · obtain ⟨hl, hs⟩ := beginHolding_lif u z
      rw [e]
      exact kept _ (.of_lif hl) ⟨_, _, by rw [hs, hq]⟩
  · rw [e]
    exact kept _ (.refl u) ⟨_, _, hq⟩

/-- Entry to RUNOUT builds its STATE notice (R43, R50). -/
theorem enterRunout_move (s : State) : StateMove .runout s.seq.scanState none s (enterRunout s) := by
  have e : (enterRunout s).seq = { s.seq with scanState := .runout, dwellVertex := none, timer := none } := by
    simp [enterRunout]
  have g := stateNotice_payload (enterRunout s).seq s.seq.scanState none
  rw [e] at g
  refine ⟨_, (announce_notified s.seq.scanState none _).congr ?_ rfl, ?_⟩
  · simp
  · rw [e]; simpa using g

/-- Entry to DWELL builds its STATE notice (R43, R48). -/
theorem enterDwell_move (j : Nat) (s : State) : StateMove .dwell s.seq.scanState none s (enterDwell j s) := by
  have e : (enterDwell j s).seq =
      { s.seq with scanState := .dwell, dwellVertex := some j, timer := some (s.profile.vertex j).plan.dwell } := by
    simp [enterDwell]
  have g := stateNotice_payload (enterDwell j s).seq s.seq.scanState none
  rw [e] at g
  refine ⟨_, (announce_notified s.seq.scanState none _).congr ?_ rfl, ?_⟩
  · simp
  · rw [e]; simpa using g

theorem SeqState.record_kept (q : SeqState) (c : Cause) (act : AbortAction) :
    (q.record c act).scanState = q.scanState ∧ (q.record c act).abortAction = some act := by
  unfold SeqState.record; split <;> exact ⟨rfl, rfl⟩

/-- Where each action is decided (Tables 3-4 and 3-5). -/
theorem abortDecision_states {st : ScanState} {kind : ScanKind} {policy : Byte} {c : Cause} {act : AbortAction}
    (h : abortDecision st kind policy c = some act) : st ≠ .halted ∧ (act = .flood → st ≠ .flood)
      ∧ (act = .quenchOut → kind = .production ∧ policyIsFlood policy = false
        ∧ (st = .dwell ∨ st = .scan ∨ st = .runout ∨ st = .soak)) := by
  cases st <;> cases kind <;> cases hc : c.cls <;> simp_all [abortDecision, policyAction] <;>
    (first | (obtain ⟨-, rfl⟩ := h; decide) | (subst h; simp) | (split at h <;> simp_all))

/-- SEQ judging a cause builds the notices of its moves and markings, and no other, where no rise is forbidden (R43, R57,
R92). -/
theorem judge_notices (c : Cause) (s : State) (hb : ¬ s.riseBlocked) :
    ∃ ns, Notified ns s (judge c s) ∧ AbortNotices s.seq (judge c s).seq ns := by
  unfold judge judgeWith
  split
  · exact ⟨[], .refl s, by simp, by rw [AbortAnnounced, if_pos rfl]; rfl⟩
  · next act hact =>
    obtain ⟨hh, hf, hq⟩ := abortDecision_states hact
    obtain ⟨rs, ra⟩ := SeqState.record_kept s.seq c act
    have lift : ∀ t : State, (∃ ns, Notified ns (s.onSeq fun q => q.record c act) t
          ∧ AbortNotices (s.seq.record c act) t.seq ns) →
        ∃ ns, Notified ns s t ∧ AbortNotices s.seq t.seq ns := by
      rintro t ⟨ns, hn, hk, ha⟩
      refine ⟨ns, hn.congr rfl rfl, hk, ?_⟩
      rw [AbortAnnounced, rs] at ha
      exact ha
    refine lift _ ?_
    cases act with
    | stop => exact stopAction_notices _ (by simpa [rs] using hh) (by simp [ra])
    | flood => exact enterFlood_notices _ (by simpa [rs] using hf rfl)
    | quenchOut =>
      obtain ⟨hp, hpol, hst⟩ := hq rfl
      refine enterQuenchOut_notices _ ?_ (by simpa [rs] using hh) ra ?_
      · simp only [State.onSeq, rs]; rcases hst with e | e | e | e <;> rw [e] <;> decide
      · simp only [State.onSeq, rs]
        have rise : (s.seq.scanState = .dwell ∨ s.seq.scanState = .scan ∨ s.seq.scanState = .runout) →
            s.axc.trackBlocked = none ∨ (s.slt.transit = [] ∧ s.slt.underCoil = none) := by
          intro hs
          by_cases hr : s.slt.transit ≠ [] ∨ s.slt.underCoil.isSome
          · left
            unfold AxcState.trackBlocked AxcState.blockedBy
            by_cases hv : s.axc.vCmd = 0
            · have hu : s.axc.upperOpen = false := by
                cases hu : s.axc.upperOpen with
                | false => rfl
                | true => exact absurd ⟨hp, by simpa [policyIsFlood] using hpol, hs, hr, hu, hv⟩ hb
              simp [hv, AxcState.isOpen, Direction.limit, hu]
            · simp [hv]
          · right
            simpa using hr
        rcases hst with e | e | e | e
        · exact .inr (rise (.inl e))
        · exact .inr (rise (.inr (.inl e)))
        · exact .inr (rise (.inr (.inr e)))
        · exact .inl e

end Sys2Proof.Machine
end

