-- ==== Sys2Proof/Laws/Operands.lean ====
section
/-! SUPPORT. What the shaft identifier's check accepts (R163). -/

namespace Sys2Proof.Machine

/-- A text field's check: printable characters up to some place, 0 bytes from there on. -/
theorem textOk_iff (bs : List Byte) : textOk bs = true ↔
    ∃ n, n ≤ bs.length ∧ ∀ i b, bs[i]? = some b → if i < n then 0x20 ≤ b.toNat ∧ b.toNat ≤ 0x7E else b = 0 := by
  induction bs with
  | nil => simp [textOk]
  | cons x xs ih =>
    rw [textOk]
    split
    next hx =>
      subst hx
      rw [List.all_eq_true]
      constructor
      · refine fun all => ⟨0, Nat.zero_le _, fun i b hi => ?_⟩
        rw [if_neg (Nat.not_lt_zero i)]
        cases i with
        | zero => simpa using hi.symm
        | succ i => simpa using all b (List.mem_of_getElem? (by simpa using hi))
      · rintro ⟨n, -, h⟩ b hb
        obtain ⟨i, hi⟩ := List.mem_iff_getElem?.1 hb
        rcases Nat.eq_zero_or_pos n with rfl | hn
        · have := h (i + 1) b (by simpa using hi)
          simpa using this
        · have := h 0 0 rfl
          rw [if_pos hn] at this
          exact absurd this.1 (by decide)
    next hx =>
      rw [Bool.and_eq_true, ih]
      constructor
      · rintro ⟨px, n, hn, h⟩
        refine ⟨n + 1, by simpa using hn, fun i b hi => ?_⟩
        cases i with
        | zero =>
          obtain rfl : x = b := by simpa using hi
          simpa [printable] using px
        | succ i => simpa using h i b (by simpa using hi)
      · rintro ⟨n, hn, h⟩
        rcases n with _ | n
        · exact absurd (by simpa using h 0 x rfl) hx
        · refine ⟨by simpa [printable] using h 0 x rfl, n, by simpa using hn, fun i b hi => ?_⟩
          simpa using h (i + 1) b (by simpa using hi)

/-- A shaft identifier is taken exactly where it holds 1 or more printable characters and 0 bytes behind them (R163,
R186). -/
theorem shaftOk_iff (bs : List Byte) : shaftOk bs = true ↔ ShaftText bs := by
  rw [shaftOk, Bool.and_eq_true, textOk_iff]
  constructor
  · rintro ⟨⟨n, hn, h⟩, first⟩
    refine ⟨n, ?_, hn, h⟩
    rcases Nat.eq_zero_or_pos n with rfl | hp
    · cases bs with
      | nil => simp at first
      | cons x xs =>
        have : x = 0 := by simpa using h 0 x rfl
        simp [this] at first
    · exact hp
  · rintro ⟨n, h1, hn, h⟩
    refine ⟨⟨n, hn, h⟩, ?_⟩
    cases bs with
    | nil => simp at hn; omega
    | cons x xs =>
      have := h 0 x rfl
      rw [if_pos (by omega)] at this
      simp only [List.headD_cons, bne_iff_ne, ne_eq]
      rintro rfl
      exact absurd this.1 (by decide)

/-- A slot is refused as the running scan's exactly where the scan runs and is bound by it (R11). -/
theorem boundSlot_iff (s : State) (n : Nat) : s.boundSlot n = true ↔ s.boundBy n := by
  simp [State.boundSlot, State.boundBy, Option.map_eq_some_iff]

end Sys2Proof.Machine
end

