-- ==== Sys2Proof/Laws/Quench.lean ====
section
/-! SUPPORT. What a flow update does to a ring and to FLOOD (R105 to R108), in the vocabulary of the statements. -/

namespace Sys2Proof.Machine

@[simp] theorem minFlow_config (s : State) (c : Circuit) : minFlow s.config c = s.leastFlow c := by cases c <;> rfl

/-- The flow a circuit forms is the flow formed of the state (R105). -/
@[simp] theorem formFlow_flow (s : State) (c : Circuit) :
    ((s.qch.circuit c).formFlow s.config.flowPulsesPerLitre).flow = s.flowFormed c := rfl

@[simp] theorem formFlow_check (r : CircuitRec) (n : Nat) : (r.formFlow n).check = r.check := rfl

/-- A watched flow is low exactly where the flow update finds it so (R107, R108). -/
theorem watchedLow_formed (s : State) (c : Circuit) :
    ((s.qch.circuit c).formFlow s.config.flowPulsesPerLitre).watchedLow (s.leastFlow c) = true ↔ s.findsLow c := by
  rw [CircuitRec.watchedLow, State.findsLow, Bool.and_eq_true, formFlow_check, formFlow_flow]
  exact and_congr beq_iff_eq decide_eq_true_iff

/-- A ring's flow update: its circuit by the flow formed and the check, and FLOW_LOW on the slice at quench where it is
found low; nothing else (R105 to R107). -/
theorem ringFlow_eq (c : Circuit) (s : State) :
    ringFlow c s =
      let t := s.onQch fun q => q.onCircuit c fun r =>
        (r.formFlow s.config.flowPulsesPerLitre).flowCheck (s.leastFlow c)
      if ((s.qch.circuit c).formFlow s.config.flowPulsesPerLitre).watchedLow (s.leastFlow c) then
        t.onSlt fun u => u.flagQuenching .flowLow
      else t := by
  cases c <;> rfl

/-- FLOW_LOW on the slice at quench, record by record (R86). -/
theorem SltState.flagQuenching_getElem? (t : SltState) (f : SliceFlag) (i : Nat) :
    (t.flagQuenching f).table[i]? = if t.atQuench = some i then (t.table[i]?).map fun r => r.flag f else t.table[i]? := by
  unfold SltState.flagQuenching
  split
  next h => simp [h]
  next k h =>
    rw [h]
    simp only [SltState.onSlice, List.getElem?_modify, Option.some.injEq]
    split <;> simp

/-- A flag reported for the QUENCHING slice changes records only. -/
theorem SltState.flagQuenching_fields (t : SltState) (f : SliceFlag) :
    t.flagQuenching f = { t with table := (t.flagQuenching f).table } := by
  unfold SltState.flagQuenching
  split <;> rfl

end Sys2Proof.Machine
end

