-- ==== Sys2Proof/Laws/ReactsCommands.lean ====
section
/-! SUPPORT. The updates and events of the scan's blocks as reactions: what no axis, converter, slice, quench, setpoint or
timer command ever changes. -/

namespace Sys2Proof.Machine

namespace Reacts

variable {s u t : State}

/-! ### Axis -/

theorem readAxis (e : Nat) (a b : Bool) (h : Reacts s u) : Reacts s (readAxis e a b u) := .onAxc _ h

theorem reportLastVertex (h : Reacts s u) : Reacts s (reportLastVertex u) := by
  unfold Machine.reportLastVertex
  split
  · exact .enterRunout h
  · exact h

theorem raiseOnset (o : TravelOnset) (h : Reacts s u) : Reacts s (raiseOnset o u) := .raiseTravels _ (.onAxc _ h)

theorem endMove (h : Reacts s u) : Reacts s (endMove u) := by
  unfold Machine.endMove
  split
  · exact .onAxc _ h
  · dsimp only
    split
    · exact .enterDwell _ (.onAxc _ h)
    · exact .onAxc _ h
  all_goals exact .onAxc _ h

theorem waitUpdate (h : Reacts s u) : Reacts s (waitUpdate u) := by
  unfold Machine.waitUpdate
  dsimp only
  split
  · exact .endMove (.onAxc _ h)
  · exact .onAxc _ (.onAxc _ h)

theorem motionStep (h : Reacts s u) : Reacts s (motionStep u) := by
  unfold Machine.motionStep
  split
  · exact .raiseBlocked _ (.onAxc _ h)
  · exact .waitUpdate h

theorem holdReport (h : Reacts s u) : Reacts s (holdReport u) := by
  unfold Machine.holdReport
  split
  · exact .onAxc _ h
  · exact h

theorem rotationStep (h : Reacts s u) : Reacts s (rotationStep u) := .onAxc _ h

theorem noteTravel (h : Reacts s u) : Reacts s (noteTravel u) := .onAxc _ h

theorem travelStep (h : Reacts s u) : Reacts s (travelStep u) := by
  unfold Machine.travelStep
  dsimp only
  split
  · exact .raiseOnset _ (.noteTravel h)
  · split
    · exact .onAxc _ (.noteTravel h)
    · exact .motionStep (.noteTravel h)

theorem withEncoder (e : Nat) (f : Nat → State → State) (hf : ∀ x v, Reacts v (f x v)) (h : Reacts s u) :
    Reacts s (withEncoder e f u) := by
  unfold Machine.withEncoder
  split
  · exact h.trans (hf _ _)
  · exact h.bumpFree.trans (hf _ _)

theorem axisUpdate (e : Nat) (a b : Bool) (h : Reacts s u) : Reacts s (axisUpdate e a b u) :=
  .examineApproach (.rotationStep (.holdReport (.travelStep (.reportLastVertex (.readAxis e a b h)))))

/-! ### Setpoint -/

theorem deliverSpeed (v : Nat) (h : Reacts s u) : Reacts s (deliverSpeed v u) := .onSpg _ h

theorem advanceSpan (h : Reacts s u) : Reacts s (advanceSpan u) := by
  unfold Machine.advanceSpan
  split
  · exact h
  · split
    · exact .activateSpan _ h
    · exact h

theorem reportNoTrim (h : Reacts s u) : Reacts s (reportNoTrim u) := by
  unfold Machine.reportNoTrim
  split
  · exact .onSlt _ h
  · exact h

theorem reportClamped (b : Bool) (h : Reacts s u) : Reacts s (reportClamped b u) := by
  unfold Machine.reportClamped
  split
  · exact .onSlt _ h
  · exact h

theorem powerUpdate (n : Nat) (h : Reacts s u) : Reacts s (powerUpdate n u) := by
  unfold Machine.powerUpdate
  dsimp only
  split
  · exact .reportNoTrim (.reportClamped _ (.deliverPower _ (.onSpg _ h)))
  · exact .reportNoTrim (.forceZero (.onSpg _ h))

theorem runUpdate (h : Reacts s u) : Reacts s (runUpdate u) := by
  unfold Machine.runUpdate
  dsimp only
  have k : Reacts s (if u.seq.scanState = .scan then Machine.advanceSpan u else u) := by
    split
    · exact .advanceSpan h
    · exact h
  split
  · exact .forceZero (.deliverSpeed _ k)
  · exact .powerUpdate _ (.deliverSpeed _ k)

/-! ### Converter -/

theorem channelUpdate (code : AdcCode) (a b : Bool) (h : Reacts s u) : Reacts s (channelUpdate code a b u) := by
  unfold Machine.channelUpdate
  dsimp only
  split
  · exact .examineApproach (.onCnv _ h)
  · exact .onCnv _ h

theorem convInputChange (i : ConvInput) (h : Reacts s u) : Reacts s (convInputChange i u) := by
  unfold Machine.convInputChange
  dsimp only
  split
  · exact .converterOn (.onCnv _ h)
  · split
    · exact .raiseConverter _ (.onCnv _ h)
    · exact .onCnv _ h
  all_goals exact .onCnv _ h

theorem raiseCoolantHot (h : Reacts s u) : Reacts s (raiseCoolantHot u) := .raiseCause _ _ (.onCnv _ h)

/-! ### Slices -/

theorem leaveHeatEvent (k clock : Nat) (h : Reacts s u) : Reacts s (leaveHeatEvent k clock u) := by
  unfold Machine.leaveHeatEvent
  have v : Reacts s _ := .onSpg (fun g => g.leaveHeat u.seq.kind (decide (u.slt.count ≤ k + 1)))
    (.onSlt (fun t => t.leaveHeat u.profile k clock) h)
  dsimp only
  split
  · exact v
  · exact .onSlt _ v

theorem leaveHeats (hNow clock n : Nat) (h : Reacts s u) : Reacts s (leaveHeats hNow clock n u) := by
  induction n generalizing u with
  | zero => exact h
  | succ n ih =>
    unfold Machine.leaveHeats
    split
    · exact h
    · split
      · exact h
      · split
        · exact ih (.leaveHeatEvent _ _ h)
        · exact h

theorem enterQuenchEvent (k hNow clock : Nat) (h : Reacts s u) : Reacts s (enterQuenchEvent k hNow clock u) := by
  unfold Machine.enterQuenchEvent
  dsimp only
  split
  · exact .onQch _ (.onSlt _ h)
  · exact .onSlt _ h

theorem leaveQuenchEvent (k clock : Nat) (h : Reacts s u) : Reacts s (leaveQuenchEvent k clock u) := by
  unfold Machine.leaveQuenchEvent
  dsimp only
  split
  · exact .drained (.sliceNotice _ (.onSlt _ h))
  · exact .sliceNotice _ (.onSlt _ h)

theorem quenchEvents (hNow clock n : Nat) (h : Reacts s u) : Reacts s (quenchEvents hNow clock n u) := by
  induction n generalizing u with
  | zero => exact h
  | succ n ih =>
    unfold Machine.quenchEvents
    split
    · split
      · exact h
      · split
        · exact ih (.leaveQuenchEvent _ _ h)
        · exact h
    · split
      · exact h
      · split
        · exact h
        · split
          · exact ih (.enterQuenchEvent _ _ _ h)
          · exact h

theorem trackingStep (hNow : Nat) (h : Reacts s u) : Reacts s (trackingStep hNow u) :=
  .reformQuench (.onSlt _ (.quenchEvents _ _ _ (.leaveHeats _ _ _ (.onSlt _ h))))

/-! ### Quench -/

theorem advancePatternNow (h : Reacts s u) : Reacts s (advancePatternNow u) := by
  unfold Machine.advancePatternNow
  split
  · split
    · exact h
    · exact .onQch _ h
  · exact h

theorem quenchUpdate (a b f : Bool) (h : Reacts s u) : Reacts s (quenchUpdate a b f u) :=
  .reformQuench (.advancePatternNow (.onQch _ h))

theorem ringFlow (c : Circuit) (h : Reacts s u) : Reacts s (ringFlow c u) := by
  unfold Machine.ringFlow
  dsimp only
  split
  · exact .onSlt _ (.onQch _ (.onQch _ h))
  · exact .onQch _ (.onQch _ h)

theorem raiseFlowLow (h : Reacts s u) : Reacts s (raiseFlowLow u) := .raiseCause _ _ (.onQch _ h)

theorem floodFlow (h : Reacts s u) : Reacts s (floodFlow u) := by
  unfold Machine.floodFlow
  have v : Reacts s _ := .onQch (fun q => q.onCircuit .flood fun r => r.flowCheck u.config.minFlowFlood)
    (.onQch (fun q => q.onCircuit .flood fun r => r.formFlow u.config.flowPulsesPerLitre) h)
  dsimp only
  split <;> split
  · exact .raiseFlowLow (.onSlt _ v)
  · exact .raiseFlowLow v
  · exact .onSlt _ v
  · exact v

theorem reportUnestablished (c : Circuit) (h : Reacts s u) : Reacts s (reportUnestablished c u) := by
  cases c
  · exact Reacts.onSlt (fun t => t.flagQuenching .flowLow) h
  · exact Reacts.onSlt (fun t => t.flagQuenching .flowLow) h
  · exact .raiseFlowLow h

/-! ### Monitor reports -/

theorem reportHeat (b : PfmState) (h : Reacts s u) : Reacts s (reportHeat b u) := by
  unfold Machine.reportHeat
  split
  · exact .forceZero h
  · exact h

theorem reportMotion (b : PfmState) (h : Reacts s u) : Reacts s (reportMotion b u) := by
  unfold Machine.reportMotion
  split
  · exact .onAxc _ h
  · exact h

theorem reportPermit (b : PfmState) (h : Reacts s u) : Reacts s (reportPermit b u) :=
  .reportMotion b (.reportHeat b (.reformQuench h))

theorem stopAtLoss (b : PfmState) (h : Reacts s u) : Reacts s (stopAtLoss b u) := .onCnv _ (.onAxc _ h)

theorem reportSelectorSeq (h : Reacts s u) : Reacts s (reportSelectorSeq u) := by
  unfold Machine.reportSelectorSeq
  split
  · exact .judge _ h
  · exact h

theorem reportSelectorAxc (h : Reacts s u) : Reacts s (reportSelectorAxc u) := by
  unfold Machine.reportSelectorAxc
  split
  · exact h
  · exact .onAxc _ h

/-! ### Starts, jogs, acknowledgements -/

theorem beginJog (n : Nat) (h : Reacts s u) : Reacts s (beginJog n u) := .raiseBlocked _ (.onAxc _ h)

theorem acknowledged (h : Reacts s u) : Reacts s (acknowledged u) :=
  .announce _ _ (.reformQuench (.onSeq _ (fun _ => ⟨rfl, rfl, rfl⟩) h))

end Reacts

/-- The commands whose whole effect is a reaction: no request, no reset, no store write, no filtered level taken. -/
def Reaction : Instr → Prop
  | .setpointUpdate | .trimHoldExpiry | .axisUpdate _ _ _ | .stall | .endOfMoveStall | .limitSwitchChange _
  | .rotationPulse _ | .rotationSettlingExpiry | .rotationOutOfBand | .channelUpdate _ _ _ | .convInputChange _
  | .startTimerExpiry | .converterStuckOn | .powerFeedback | .pyrometerSample _ | .coolantSample _ | .trackingStep
  | .quenchUpdate _ _ _ | .valveMismatch _ | .mismatchCleared _ | .flowPulse _ | .flowUpdate | .riseTimeExpiry _
  | .dwellExpiry | .soakExpiry | .holdTimerExpiry | .floodTimerExpiry => True
  | _ => False

/-- A reaction command answers a state that its reactions reach. -/
theorem exec_reaction {c : Instr} (hc : Reaction c) {s t : State} (h : exec c s = .next t) : Reacts s t := by
  cases c <;> try exact hc.elim
  case setpointUpdate =>
    simp only [exec, execSetpointUpdate] at h
    split at h
    · cases h; exact .runUpdate (.refl s)
    · split at h
      · cases h; exact .forceZero (.refl s)
      · cases h; exact .runUpdate (.refl s)
    all_goals cases h; exact .refl s
  case trimHoldExpiry =>
    simp only [exec, execTrimHoldExpiry] at h
    split at h <;> cases h
    · exact .onSpg _ (.refl s)
    · exact .refl s
  case axisUpdate =>
    simp only [exec, execAxisUpdate] at h
    split at h <;> cases h
    · exact .refl s
    · exact .withEncoder _ _ (fun e v => .axisUpdate e _ _ (.refl v)) (.refl s)
  case stall =>
    simp only [exec, execStall] at h
    split at h <;> cases h
    · exact .raiseTravel _ _ (.onAxc _ (.refl s))
    · exact .refl s
  case endOfMoveStall =>
    simp only [exec, execEndOfMoveStall] at h
    split at h <;> cases h
    · exact .onAxc _ (.raiseTravel _ _ (.refl s))
    · exact .refl s
  case limitSwitchChange w =>
    simp only [exec, execLimitSwitchChange] at h
    split at h
    · split at h <;> cases h
      · exact .raiseTravel _ _ (.onAxc _ (.refl s))
      · exact .onAxc _ (.refl s)
    · cases h; exact .refl s
  case rotationPulse =>
    simp only [exec, execRotationPulse] at h
    split at h <;> cases h
    · exact .refl s
    · exact .onSlt _ (.onAxc _ (.refl s))
  case rotationSettlingExpiry =>
    simp only [exec, execRotationSettlingExpiry] at h
    split at h <;> cases h
    · exact .raiseCause _ _ (.onAxc _ (.refl s))
    · exact .refl s
  case rotationOutOfBand =>
    simp only [exec, execRotationOutOfBand] at h
    split at h <;> cases h
    · exact .raiseCause _ _ (.onAxc _ (.refl s))
    · exact .refl s
  case channelUpdate =>
    simp only [exec, execChannelUpdate] at h
    split at h <;> cases h
    · exact .refl s
    · exact .channelUpdate _ _ _ (.refl s)
  case convInputChange =>
    simp only [exec, execConvInputChange] at h
    split at h <;> cases h
    · exact .convInputChange _ (.refl s)
    · exact .refl s
  case startTimerExpiry =>
    simp only [exec, execStartTimerExpiry] at h
    split at h <;> cases h
    · exact .raiseConverter _ (.refl s)
    · exact .refl s
  case converterStuckOn =>
    simp only [exec, execConverterStuckOn] at h
    split at h <;> cases h
    · exact .pfmTake _ (.onCnv _ (.refl s))
    · exact .refl s
  case powerFeedback =>
    simp only [exec, execPowerFeedback] at h
    split at h <;> cases h
    · exact .raiseConverter _ (.refl s)
    · exact .refl s
  case pyrometerSample =>
    simp only [exec, execPyrometerSample] at h
    split at h <;> cases h
    · exact .refl s
    · exact .onCnv _ (.refl s)
  case coolantSample =>
    simp only [exec, execCoolantSample] at h
    split at h
    · cases h; exact .refl s
    · split at h <;> cases h
      · exact .raiseCoolantHot (.derateCut (.onCnv _ (.refl s)))
      · exact .derateCut (.onCnv _ (.refl s))
  case trackingStep =>
    simp only [exec, execTrackingStep] at h
    split at h
    · split at h <;> cases h
      · exact .trackingStep _ (.refl s)
      · exact .refl s
    · cases h; exact .refl s
  case quenchUpdate =>
    simp only [exec, execQuenchUpdate] at h
    split at h <;> cases h
    · exact .refl s
    · exact .quenchUpdate _ _ _ (.refl s)
  case valveMismatch =>
    simp only [exec, execValveMismatch] at h
    split at h <;> cases h
    · exact .raiseCause _ _ (.onQch _ (.refl s))
    · exact .refl s
  case mismatchCleared =>
    simp only [exec, execMismatchCleared] at h
    split at h <;> cases h
    · exact .reformQuench (.onQch _ (.refl s))
    · exact .refl s
  case flowPulse =>
    simp only [exec, execFlowPulse] at h
    split at h <;> cases h
    · exact .refl s
    · exact .onQch _ (.refl s)
  case flowUpdate =>
    simp only [exec, execFlowUpdate] at h
    split at h <;> cases h
    · exact .refl s
    · exact .floodFlow (.ringFlow _ (.ringFlow _ (.refl s)))
  case riseTimeExpiry =>
    simp only [exec, execRiseTimeExpiry] at h
    split at h <;> cases h
    · exact .reportUnestablished _ (.onQch _ (.refl s))
    · exact .refl s
  case dwellExpiry =>
    simp only [exec, execDwellExpiry] at h
    split at h <;> cases h
    · exact .leaveDwell (.refl s)
    · exact .refl s
  case soakExpiry =>
    simp only [exec, execSoakExpiry] at h
    split at h <;> cases h
    · exact .enterComplete (.refl s)
    · exact .refl s
  case holdTimerExpiry =>
    simp only [exec, execHoldTimerExpiry] at h
    split at h <;> cases h
    · exact .enterHalted (.refl s)
    · exact .refl s
  case floodTimerExpiry =>
    simp only [exec, execFloodTimerExpiry] at h
    split at h <;> cases h
    · exact .enterHalted (.refl s)
    · exact .refl s

end Sys2Proof.Machine
end

