-- ==== Sys2Proof/Laws/Requests.lean ====
section
/-! SUPPORT. What serving a request never does, and how a request that finds its port free is taken and answered. -/

namespace Sys2Proof.Machine

/-- What judging a request may do to a port: notices joined, the mask set, the flags changed. -/
def PortState.ServedTo (q r : PortState) : Prop :=
  ∃ ns d m o, (∀ f ∈ ns, f.tag = 0) ∧ (q.tx ++ ns).length ≤ max 8 q.tx.length
    ∧ r = { q with tx := q.tx ++ ns, dropped := d, mask := m, overrun := o }

theorem PortState.NoticesOnly.servedTo {q r : PortState} (h : q.NoticesOnly r) : q.ServedTo r := by
  obtain ⟨ns, d, hns, hl, rfl⟩ := h
  exact ⟨ns, d, q.mask, q.overrun, hns, hl, rfl⟩

theorem PortState.ServedTo.trans {q r v : PortState} (h : q.ServedTo r) (g : r.ServedTo v) : q.ServedTo v := by
  obtain ⟨ns, d, m, o, hns, hl, rfl⟩ := h
  obtain ⟨ms, e, m', o', hms, hk, rfl⟩ := g
  refine ⟨ns ++ ms, e, m', o', fun f hf => ?_, ?_, by simp⟩
  · rcases List.mem_append.mp hf with hf | hf
    · exact hns f hf
    · exact hms f hf
  · simp only [List.length_append] at *; omega

/-- What judging a request keeps. -/
structure Serves (s t : State) : Prop where
  startup : t.startup = s.startup
  pending : t.pending = s.pending
  port : ∀ p, (s.lif.port p).ServedTo (t.lif.port p)

theorem Reacts.serves {s t : State} (h : Reacts s t) : Serves s t :=
  ⟨h.startup, h.pending, fun p => (h.lif.2.2 p).servedTo⟩

namespace Serves

variable {s u t : State}

theorem refl (s : State) : Serves s s := (Reacts.refl s).serves

theorem trans (h : Serves s u) (g : Serves u t) : Serves s t :=
  ⟨g.startup.trans h.startup, g.pending.trans h.pending, fun p => (h.port p).trans (g.port p)⟩

theorem onPst (f : PstState → PstState) (h : Serves s u) : Serves s (u.onPst f) := { h with }
theorem onOrd (f : OrdState → OrdState) (h : Serves s u) : Serves s (u.onOrd f) := { h with }
theorem onSpg (f : SpgState → SpgState) (h : Serves s u) : Serves s (u.onSpg f) := { h with }
theorem onPfm (f : PfmState → PfmState) (h : Serves s u) : Serves s (u.onPfm f) := { h with }
theorem onSeq (f : SeqState → SeqState) (h : Serves s u) : Serves s (u.onSeq f) := { h with }
theorem reacts (h : Serves s u) (g : Reacts u t) : Serves s t := h.trans g.serves

theorem setHolder (x : Option Port) (h : Serves s u) : Serves s (setHolder x u) :=
  ⟨h.startup, h.pending, fun p => by cases p <;> exact h.port _⟩

theorem setQueue (q : List Order) (h : Serves s u) : Serves s (setQueue q u) :=
  (h.onOrd fun o => { o with queue := q }).reacts (.reformLamps (.refl _))

theorem orderNotice (n : Nat) (st : Status) (k : Option ScanKind) (h : Serves s u) :
    Serves s (orderNotice n st k u) := h.reacts (.notice _ _ (.refl _))

/-- One port's flags and mask changed. -/
theorem onPort (p : Port) (f : PortState → PortState)
    (hf : ∀ q : PortState, ∃ d m o, f q = { q with dropped := d, mask := m, overrun := o }) (h : Serves s u) :
    Serves s (u.onLif fun l => l.onPort p f) := by
  refine h.trans ⟨rfl, rfl, fun r => ?_⟩
  by_cases e : r = p
  · subst e
    obtain ⟨d, m, o, hq⟩ := hf (u.lif.port r)
    exact ⟨[], d, m, o, by simp, by rw [List.append_nil]; omega, by simp [hq]⟩
  · rw [State.onLif_lif, LifState.onPort_other u.lif e]
    exact (PortState.NoticesOnly.refl _).servedTo

theorem bindStart (o : Order) (w : Working) (h : Serves s u) : Serves s (bindStart o w u).1 := by
  unfold Machine.bindStart
  dsimp only
  exact .reacts (.onSeq _ (.onPfm _ (.onOrd _ h)))
    (.announce _ _ (.reformQuench (.onAxc _ (.onQch _ (.onSpg _ (.onSlt _ (.refl _)))))))

theorem takeStart (o : Order) (w : Working) (h : Serves s u) : Serves s (takeStart o w u) :=
  .orderNotice _ _ _ ((h.bindStart o w).reacts (.raiseAll _ (.onAxc _ (.refl _))))

theorem removeStale (o : Order) (h : Serves s u) : Serves s (removeStale o u) := .orderNotice _ _ _ (.setQueue _ h)

theorem startByEdge (h : Serves s u) : Serves s (startByEdge u) := by
  unfold Machine.startByEdge
  split
  · exact .takeStart _ _ h
  · exact .orderNotice _ _ _ h
  · exact .removeStale _ h
  · exact .orderNotice _ _ _ h

theorem startEdge (h : Serves s u) : Serves s (startEdge u) := by
  unfold Machine.startEdge
  split
  · exact h
  · split
    · exact .orderNotice _ _ _ h
    · split
      · exact .startByEdge h
      · exact .orderNotice _ _ _ h

/-- A request's judgement seen by its state. -/
theorem refuse (st : Status) (h : Serves s u) : Serves s (refuse st u).state := h
theorem answer (bs : List Byte) (h : Serves s u) : Serves s (answer bs u).state := h

theorem controlled (k : RequestKind) (p : Port) (bs : List Byte) {v : Served} (h : Serves s v.state) :
    Serves s (controlled k p bs s v).state := by
  unfold Machine.controlled
  split
  · exact .refl s
  · split
    · exact .refl s
    · exact h

theorem uncontrolled (k : RequestKind) (bs : List Byte) {v : Served} (h : Serves s v.state) :
    Serves s (uncontrolled k bs s v).state := by
  unfold Machine.uncontrolled
  split
  · exact .refl s
  · exact h

theorem servePart (r n : Nat) (q : Profile) (part : ProfilePart) (s : State) :
    Serves s (servePart r n q part s).state := by
  unfold Machine.servePart
  split
  · exact .refl s
  · split <;> exact .refl s

theorem serveReadProfile (bs : List Byte) (s : State) : Serves s (serveReadProfile bs s).state := by
  refine .uncontrolled _ _ ?_
  split
  · unfold serveReadStaging
    split
    · exact .refl s
    · exact .servePart _ _ _ _ s
  · split
    · unfold serveReadWorking
      split
      · exact .refl s
      · exact .servePart _ _ _ _ s
    · split
      · unfold serveReadSlot
        split
        · exact .refl s
        · exact .refl s
        · exact .refl s
        · exact .servePart _ _ _ _ s
      · exact .refl s

theorem serveReadSlices (bs : List Byte) (s : State) : Serves s (serveReadSlices bs s).state := by
  refine .uncontrolled _ _ ?_
  split
  · exact .refl s
  · split
    · exact .refl s
    · split <;> exact .refl s

theorem serveSetNotices (p : Port) (bs : List Byte) (s : State) : Serves s (serveSetNotices p bs s).state := by
  refine .uncontrolled _ _ ?_
  split
  · exact .refl s
  · exact .answer _ (.onPort p _ (fun q => ⟨q.dropped, _, q.overrun, rfl⟩) (.refl s))

theorem serveTakeControl (p : Port) (bs : List Byte) (s : State) : Serves s (serveTakeControl p bs s).state := by
  unfold Machine.serveTakeControl
  split
  · exact .refl s
  · split
    · exact .refl s
    all_goals
      split
      · exact .setHolder _ (.refl s)
      · split
        · exact .refl s
        · split
          · exact .refl s
          · exact .setHolder _ (.refl s)
          · exact .refl s

theorem serveReleaseControl (p : Port) (bs : List Byte) (s : State) :
    Serves s (serveReleaseControl p bs s).state := by
  unfold Machine.serveReleaseControl
  split
  · exact .refl s
  · split
    · exact .refl s
    · exact .setHolder _ (.refl s)

theorem serveRestart (p : Port) (bs : List Byte) (s : State) : Serves s (serveRestart p bs s).state := by
  refine .controlled _ _ _ ?_
  split
  · exact .refl s
  · split
    · exact .refl s
    · exact ⟨rfl, rfl, fun r => by cases r <;> exact (PortState.NoticesOnly.refl _).servedTo⟩

theorem serveEnqueueOrder (p : Port) (bs : List Byte) (s : State) : Serves s (serveEnqueueOrder p bs s).state := by
  refine .controlled _ _ _ ?_
  dsimp only
  repeat' split
  all_goals first | exact .refl s | exact .orderNotice _ _ _ (.setQueue _ (.refl s))

theorem serveCancelOrder (p : Port) (bs : List Byte) (s : State) : Serves s (serveCancelOrder p bs s).state := by
  refine .controlled _ _ _ ?_
  split
  · exact .orderNotice _ _ _ (.setQueue _ (.refl s))
  · exact .refl s

theorem serveStartScan (p : Port) (bs : List Byte) (s : State) : Serves s (serveStartScan p bs s).state := by
  refine .controlled _ _ _ ?_
  split
  · exact .takeStart _ _ (.refl s)
  · exact .refl s
  · exact .removeStale _ (.refl s)
  · exact .refl s

theorem serveLoadPatch (p : Port) (bs : List Byte) (s : State) : Serves s (serveLoadPatch p bs s).state := by
  refine .controlled _ _ _ ?_
  dsimp only
  repeat' split
  all_goals first | exact .refl s | exact .answer _ (.onOrd _ (.refl s))

theorem serveClearPatch (p : Port) (bs : List Byte) (s : State) : Serves s (serveClearPatch p bs s).state := by
  refine .controlled _ _ _ ?_
  dsimp only
  split
  · exact .refl s
  · split
    · exact .refl s
    · exact .answer _ (.onOrd _ (.refl s))

theorem serveAcknowledge (p : Port) (bs : List Byte) (s : State) : Serves s (serveAcknowledge p bs s).state := by
  refine .controlled _ _ _ ?_
  split
  · exact .refl s
  · split
    · exact (Reacts.acknowledged (.refl s)).serves
    · exact .refl s

theorem serveClearFaults (p : Port) (bs : List Byte) (s : State) : Serves s (serveClearFaults p bs s).state := by
  refine .controlled _ _ _ ?_
  split
  · exact .refl s
  · exact (Serves.onPfm _ (.refl s)).reacts (.notice _ _ (.reformLamps (.refl _)))

theorem serveTrimAdjust (p : Port) (bs : List Byte) (s : State) : Serves s (serveTrimAdjust p bs s).state := by
  refine .controlled _ _ _ ?_
  split
  · exact .answer _ (.onSpg _ (.refl s))
  · exact .refl s

theorem serveJog (p : Port) (bs : List Byte) (s : State) : Serves s (serveJog p bs s).state := by
  unfold Machine.serveJog
  repeat' split
  all_goals first | exact .refl s | exact (Reacts.beginJog _ (.refl s)).serves

theorem serveAbortScan (bs : List Byte) (s : State) : Serves s (serveAbortScan bs s).state :=
  .uncontrolled _ _ (Reacts.judge _ (.refl s)).serves

theorem serveBeginProfile (p : Port) (bs : List Byte) (s : State) : Serves s (serveBeginProfile p bs s).state :=
  .controlled _ _ _ (.answer _ (.onPst _ (.refl s)))

theorem serveProfileVertices (p : Port) (bs : List Byte) (s : State) :
    Serves s (serveProfileVertices p bs s).state := by
  unfold Machine.serveProfileVertices
  dsimp only
  repeat' split
  all_goals first | exact .refl s | exact .answer _ (.onPst _ (.refl s))

theorem serveCommitProfile (p : Port) (bs : List Byte) (s : State) : Serves s (serveCommitProfile p bs s).state := by
  refine .controlled _ _ _ ?_
  dsimp only
  repeat' split
  all_goals first | exact .refl s | exact .answer _ (.onPst _ (.refl s))

theorem serveEraseProfile (p : Port) (bs : List Byte) (s : State) : Serves s (serveEraseProfile p bs s).state := by
  refine .controlled _ _ _ ?_
  dsimp only
  repeat' split
  all_goals first | exact .refl s | exact .answer _ (.onPst _ (.refl s))

theorem serveWriteConfig (p : Port) (bs : List Byte) (s : State) : Serves s (serveWriteConfig p bs s).state := by
  unfold Machine.serveWriteConfig
  dsimp only
  repeat' split
  all_goals first | exact .refl s | exact .answer _ (.onPst _ (.refl s))

/-- Judging a request changes neither the start-up mark nor the waiting commands, nor what waits on a port. -/
theorem serve (k : RequestKind) (p : Port) (bs : List Byte) (s : State) : Serves s (serve k p bs s).state := by
  cases k
  case getStatus =>
    exact .uncontrolled _ _ (.answer _ (.onPort p _ (fun q => ⟨false, q.mask, false, rfl⟩) (.refl s)))
  case readProfile => exact serveReadProfile bs s
  case readSlices => exact serveReadSlices bs s
  case setNotices => exact serveSetNotices p bs s
  case takeControl => exact serveTakeControl p bs s
  case releaseControl => exact serveReleaseControl p bs s
  case enqueueOrder => exact serveEnqueueOrder p bs s
  case cancelOrder => exact serveCancelOrder p bs s
  case startScan => exact serveStartScan p bs s
  case acknowledge => exact serveAcknowledge p bs s
  case clearFaults => exact serveClearFaults p bs s
  case trimAdjust => exact serveTrimAdjust p bs s
  case loadPatch => exact serveLoadPatch p bs s
  case clearPatch => exact serveClearPatch p bs s
  case beginProfile => exact serveBeginProfile p bs s
  case profileVertices => exact serveProfileVertices p bs s
  case commitProfile => exact serveCommitProfile p bs s
  case eraseProfile => exact serveEraseProfile p bs s
  case writeConfig => exact serveWriteConfig p bs s
  case jog => exact serveJog p bs s
  case restart => exact serveRestart p bs s
  case abortScan => exact serveAbortScan bs s
  all_goals exact .uncontrolled _ _ (.refl s)

/-- As `serve`, with the answers of start-up, restart and unknown kinds. -/
theorem judgeRequest (p : Port) (f : Frame) (s : State) : Serves s (judgeRequest p f s).state := by
  unfold Machine.judgeRequest
  split
  · exact .refl s
  · split
    · exact .refl s
    · exact .serve _ _ _ s

end Serves

/-! ### A request that finds its port free -/

/-- The request in service at a port. -/
def State.inService (s : State) (p : Port) (f : Frame) : State :=
  s.onLif fun l => l.onPort p fun q => { q with inService := some f }

/-- A request that finds its port free is taken at its arrival, and nothing is left waiting on the port but, where the
transmit queue is full, its own reply (R176 to R178). -/
theorem deliverFrame_free {s : State} {p : Port} {f : Frame} (hf : f.isRequest = true)
    (hs : (s.lif.port p).inService = none) (hb : (s.lif.port p).buffer = []) :
    deliverFrame p f s = takeRequest p f (s.inService p f) := by
  have h₁ : (s.lif.port p).accept f = { s.lif.port p with buffer := [f] } := by
    simp [PortState.accept, hb, rxRoom]
  have h₂ : ∀ n, drainPort p n (takeRequest p f (s.inService p f)) = takeRequest p f (s.inService p f) := by
    intro n
    cases n with
    | zero => rfl
    | succ n =>
      have hk : ((takeRequest p f (s.inService p f)).lif.port p).buffer = [] := by
        obtain ⟨ns, d, m, o, -, -, hp⟩ := (Serves.judgeRequest p f (s.inService p f)).port p
        have : ((s.inService p f).lif.port p).buffer = [] := by simp [State.inService, hb]
        simp only [takeRequest, State.onLif_lif, LifState.onPort_same, PortState.queueReply]
        rw [hp]
        split <;> exact this
      unfold drainPort
      split
      · next hc => rw [hk] at hc; cases hc
      · rfl
  have h₃ : (s.onLif fun l => l.onPort p fun q => q.accept f).onLif (fun l => l.onPort p fun q =>
      { q with buffer := [], inService := some f }) = s.inService p f := by
    simp only [State.inService, State.onLif]
    congr 1
    cases p <;> simp_all [LifState.onPort, LifState.port]
  simp only [deliverFrame, hf, if_true, rxRoom]
  unfold drainPort
  simp only [State.onLif_lif, LifState.onPort_same, h₁, hs]
  rw [h₃]
  exact h₂ _

/-- A request constructor is the arrival of its frame (log entry 12). -/
theorem exec_instr (k : RequestKind) (p : Port) (tag : Byte) (bs : List Byte) (s : State) :
    exec (k.instr p tag bs) s = .next (deliverFrame p ⟨tag, k.code, bs⟩ s) := by
  cases k <;> rfl

theorem RequestKind.code_lt (k : RequestKind) : k.code.toNat < 0x80 := by cases k <;> decide

/-- Every request kind is read from its own code (Table 11-2). -/
theorem requestOf_code (k : RequestKind) : requestOf k.code = some k := by cases k <;> decide

theorem RequestKind.isRequest {tag : Byte} {bs : List Byte} (k : RequestKind) (ht : tag ≠ 0) (hl : bs.length ≤ 240) :
    (⟨tag, k.code, bs⟩ : Frame).isRequest = true := by
  have := k.code_lt
  simpa [Frame.isRequest, payloadMax, this, hl] using ht

@[simp] theorem State.inService_frame (s : State) (p : Port) (f : Frame) :
    (s.inService p f).startup = s.startup ∧ (s.inService p f).pst = s.pst ∧ (s.inService p f).ord = s.ord ∧
    (s.inService p f).seq = s.seq ∧ (s.inService p f).spg = s.spg ∧ (s.inService p f).axc = s.axc ∧
    (s.inService p f).cnv = s.cnv ∧ (s.inService p f).slt = s.slt ∧ (s.inService p f).qch = s.qch ∧
    (s.inService p f).pfm = s.pfm ∧ (s.inService p f).freeCount = s.freeCount ∧
    (s.inService p f).pending = s.pending := by
  exact ⟨rfl, rfl, rfl, rfl, rfl, rfl, rfl, rfl, rfl, rfl, rfl, rfl⟩

@[simp] theorem State.inService_holder (s : State) (p : Port) (f : Frame) :
    (s.inService p f).lif.holder = s.lif.holder := by
  cases p <;> rfl

@[simp] theorem State.inService_restartPending (s : State) (p : Port) (f : Frame) :
    (s.inService p f).lif.restartPending = s.lif.restartPending := by
  cases p <;> rfl

@[simp] theorem State.inService_holds (s : State) (p : Port) (f : Frame) (r : Port) :
    (s.inService p f).holds r = s.holds r := by
  cases p <;> rfl

/-- A notice and a request in service do not meet. -/
theorem notice_inService (k : NoticeKind) (bs : List Byte) (s : State) (p : Port) (f : Frame) :
    notice k bs (s.inService p f) = (notice k bs s).inService p f := by
  have h : ∀ q : PortState, { q with inService := some f }.offer k bs = { q.offer k bs with inService := some f } := by
    intro q
    unfold PortState.offer
    split
    · split <;> rfl
    · rfl
  cases p <;> simp [notice, State.inService, State.onLif, LifState.onPort, h]

/-- A request judged from the state with it in service, its reply queued. -/
theorem takeRequest_inService (s u : State) (p : Port) (tag : Byte) (k : RequestKind) (bs : List Byte) (st : Status)
    (c : List Byte)
    (hu : judgeRequest p ⟨tag, k.code, bs⟩ (s.inService p ⟨tag, k.code, bs⟩)
      = ⟨u.inService p ⟨tag, k.code, bs⟩, ⟨st, c⟩⟩) :
    takeRequest p ⟨tag, k.code, bs⟩ (s.inService p ⟨tag, k.code, bs⟩) = u.reply p tag k bs st c := by
  unfold takeRequest
  rw [hu]
  cases p <;> rfl

/-- A request that finds its port free is answered with what judging it gives. -/
theorem exec_free {s u : State} {p : Port} {tag : Byte} {k : RequestKind} {bs c : List Byte} {st : Status}
    (ht : tag ≠ 0) (hl : bs.length ≤ 240) (h₁ : (s.lif.port p).inService = none) (h₂ : (s.lif.port p).buffer = [])
    (hu : judgeRequest p ⟨tag, k.code, bs⟩ (s.inService p ⟨tag, k.code, bs⟩)
      = ⟨u.inService p ⟨tag, k.code, bs⟩, ⟨st, c⟩⟩) :
    exec (k.instr p tag bs) s = .next (u.reply p tag k bs st c) := by
  rw [exec_instr, deliverFrame_free (k.isRequest ht hl) h₁ h₂, takeRequest_inService s u p tag k bs st c hu]

/-- A request at a serving port is answered with what its owner's rule gives (R177). -/
theorem exec_serving {s u : State} {p : Port} {tag : Byte} {k : RequestKind} {bs c : List Byte} {st : Status}
    (ht : tag ≠ 0) (hl : bs.length ≤ 240) (h : s.serving p)
    (hu : serve k p bs (s.inService p ⟨tag, k.code, bs⟩) = ⟨u.inService p ⟨tag, k.code, bs⟩, ⟨st, c⟩⟩) :
    exec (k.instr p tag bs) s = .next (u.reply p tag k bs st c) := by
  refine exec_free ht hl h.2.2.1 h.2.2.2 ?_
  unfold judgeRequest
  rw [if_neg (by simp [h.1, h.2.1])]
  simp only [requestOf_code, hu]

end Sys2Proof.Machine
end

