-- ==== Sys2Proof/Laws/Slices.lean ====
section
/-! SUPPORT. What the attribution of a power sample can do (R79 to R81): which items it changes, where the sample goes, and
that the cut loses nothing. -/

namespace Sys2Proof.Machine

/-! ### What it changes -/

@[simp] theorem SliceRec.credit_endPos (e : Nat) (r : SliceRec) : (r.credit e).endPos = r.endPos := rfl

@[simp] theorem SliceRec.credit_eAct (e : Nat) (r : SliceRec) : (r.credit e).eAct = satAdd top32 r.eAct e := rfl

@[simp] theorem creditSlices_nil (rs : List SliceRec) : creditSlices rs [] = rs := by cases rs <;> rfl

@[simp] theorem creditSlices_length (rs : List SliceRec) : ∀ es, (creditSlices rs es).length = rs.length := by
  induction rs with
  | nil => exact fun _ => rfl
  | cons r rs ih => intro es; cases es <;> simp [creditSlices, ih]

/-- Each record credited keeps everything but its actual energy. -/
theorem creditSlices_getElem? (rs : List SliceRec) : ∀ es (i : Nat),
    (creditSlices rs es)[i]? = (rs[i]?).map fun r => match es[i]? with | some e => r.credit e | none => r := by
  induction rs with
  | nil => intro es i; simp [creditSlices]
  | cons r rs ih =>
    intro es i
    cases es with
    | nil => simp
    | cons e es => cases i <;> simp [creditSlices, ih]

/-- Only the records and the unassigned energy change. -/
theorem SltState.attribute_fields (t : SltState) (sample h : Nat) :
    t.attribute sample h = { t with
      table := (t.attribute sample h).table, unassigned := (t.attribute sample h).unassigned } := by
  simp only [SltState.attribute]
  split
  · rfl
  · split <;> rfl

@[simp] theorem SltState.attribute_table_length (t : SltState) (sample h : Nat) :
    (t.attribute sample h).table.length = t.table.length := by
  simp only [SltState.attribute]
  split
  · rfl
  · split <;> simp [SltState.onSlice] <;> omega

/-! ### Where the sample goes -/

/-- With no slice HEATING it is unassigned (R79). -/
theorem SltState.attribute_none {t : SltState} (h : t.underCoil = none) (sample hNow : Nat) :
    t.attribute sample hNow = { t with unassigned := satAdd top32 t.unassigned sample } := by
  simp [SltState.attribute, h]

/-- With no slice end in the interval the HEATING slice takes it whole (R79). -/
theorem SltState.attribute_whole {t : SltState} {k hNow : Nat} (hk : t.underCoil = some k)
    (none_in : ∀ r ∈ t.table.drop k, r.endsIn (t.mark.getD hNow) hNow = false) (sample : Nat) :
    t.attribute sample hNow = t.onSlice k (SliceRec.credit sample) := by
  have h : ((t.table.drop k).any fun r => r.endsIn (t.mark.getD hNow) hNow) = false := by
    rw [List.any_eq_false]
    intro r hr
    simp [none_in r hr]
  simp [SltState.attribute, hk, h]

/-- A slice that ends at or below the part's start takes none of it. -/
theorem sampleParts_below {r : SliceRec} {lo : Nat} (hr : r.endPos ≤ lo) (sample m h given : Nat) (rs : List SliceRec) :
    sampleParts sample m h (r :: rs) lo given
      = (0 :: (sampleParts sample m h rs lo given).1, (sampleParts sample m h rs lo given).2) := by
  simp [sampleParts, hr]

/-- A slice that ends inside the interval takes its share by length. -/
theorem sampleParts_inside {r : SliceRec} {lo h : Nat} (hl : lo < r.endPos) (hr : r.endPos < h) (sample m given : Nat)
    (rs : List SliceRec) :
    let part := halfUp (sample * (r.endPos - lo)) (h - m)
    sampleParts sample m h (r :: rs) lo given
      = (part :: (sampleParts sample m h rs r.endPos (given + part)).1,
          (sampleParts sample m h rs r.endPos (given + part)).2) := by
  simp [sampleParts, hr, Nat.not_le.2 hl]

/-- A slice that ends at or above the high mark takes what the others left. -/
theorem sampleParts_last {r : SliceRec} {lo h : Nat} (hl : lo < r.endPos) (hr : h ≤ r.endPos) (sample m given : Nat)
    (rs : List SliceRec) : sampleParts sample m h (r :: rs) lo given = ([sample - given], 0) := by
  simp [sampleParts, Nat.not_le.2 hl, Nat.not_lt.2 hr]

/-! ### Nothing is lost -/

/-- A half-up quotient exceeds its fraction by at most a half. -/
theorem halfUp_le (a n : Nat) : 2 * n * halfUp a n ≤ 2 * a + n := by
  rw [halfUp]
  exact Nat.mul_div_le _ _

@[simp] theorem halfUp_zero (n : Nat) : halfUp 0 n = 0 := by
  rcases Nat.eq_zero_or_pos n with rfl | hn
  · simp [halfUp]
  · exact Nat.div_eq_of_lt (by omega)

/-- The parts and what lies above x_last make up the sample, where at most two ends lie strictly inside the interval (R79,
R74). `c` counts the ends already cut; what they have received exceeds its share by at most a half each. -/
theorem sampleParts_sum {sample m h : Nat} (rs : List SliceRec) : ∀ lo given c : Nat, m ≤ lo → lo < h → given ≤ sample →
    2 * (h - m) * given ≤ 2 * (sample * (lo - m)) + c * (h - m) →
    c + (rs.filter fun r => decide (lo < r.endPos) && decide (r.endPos < h)).length ≤ 2 →
    given + (sampleParts sample m h rs lo given).1.sum + (sampleParts sample m h rs lo given).2 = sample := by
  induction rs with
  | nil => intro lo given c _ _ hg _ _; simp [sampleParts]; omega
  | cons r rs ih =>
    intro lo given c hm hlo hg hb hc
    rcases Nat.lt_or_ge lo r.endPos with hl | hl
    · rcases Nat.lt_or_ge r.endPos h with hr | hr
      · have hc' : c + 1 + (rs.filter fun q => decide (lo < q.endPos) && decide (q.endPos < h)).length ≤ 2 := by
          simp [hl, hr] at hc
          simpa [Nat.add_assoc, Nat.add_comm, Nat.add_left_comm] using hc
        have fewer : (rs.filter fun q => decide (r.endPos < q.endPos) && decide (q.endPos < h)).length
            ≤ (rs.filter fun q => decide (lo < q.endPos) && decide (q.endPos < h)).length := by
          rw [← List.countP_eq_length_filter, ← List.countP_eq_length_filter]
          apply List.countP_mono_left
          intro q _
          simp
          omega
        generalize hpart : halfUp (sample * (r.endPos - lo)) (h - m) = part
        have share : 2 * (h - m) * (given + part) ≤ 2 * (sample * (r.endPos - m)) + (c + 1) * (h - m) := by
          have := halfUp_le (sample * (r.endPos - lo)) (h - m)
          rw [hpart] at this
          have split : sample * (r.endPos - m) = sample * (r.endPos - lo) + sample * (lo - m) := by
            rw [← Nat.mul_add]
            congr 1
            omega
          rw [Nat.mul_add, split, Nat.add_mul c 1]
          omega
        have fits : given + part ≤ sample := by
          rcases Nat.eq_zero_or_pos sample with h0 | hpos
          · rw [h0, Nat.zero_mul, halfUp_zero] at hpart
            omega
          · have le2 : (c + 1) * (h - m) ≤ 2 * (h - m) := Nat.mul_le_mul_right _ (by omega)
            have short : sample * (r.endPos - m) + 1 ≤ sample * (h - m) := by
              have : sample * (r.endPos - m) + sample ≤ sample * (h - m) := by
                rw [← Nat.mul_succ]
                exact Nat.mul_le_mul_left _ (by omega)
              omega
            have lt : 2 * (h - m) * (given + part) < 2 * (h - m) * (sample + 1) := by
              have : 2 * (h - m) * (sample + 1) = 2 * (sample * (h - m)) + 2 * (h - m) := by
                rw [Nat.mul_add, Nat.mul_one, Nat.mul_assoc, Nat.mul_comm (h - m) sample]
              omega
            exact Nat.lt_succ_iff.1 (Nat.lt_of_mul_lt_mul_left lt)
        have := ih r.endPos (given + part) (c + 1) (by omega) hr fits share (by omega)
        rw [sampleParts_inside hl hr, hpart]
        simp only [List.sum_cons]
        omega
      · rw [sampleParts_last hl hr]
        simp
        omega
    · rw [sampleParts_below hl]
      have := ih lo given c hm hlo hg hb (by
        simp [Nat.not_lt.2 hl] at hc
        simpa using hc)
      simpa using this

end Sys2Proof.Machine
end

