-- ==== Sys2Proof/Laws/Starting.lean ====
section
/-! SUPPORT. What binding an order gives and when it refuses (R168), the refusals of a start (R166, R167), and the slice
table a START creates (R69, R70). -/

namespace Sys2Proof.Machine

/-- The replaced vertices, found slot by slot from patch slot k on. -/
def replacedFrom (profile : Nat) : Nat → List (Option Patch) → List (Nat × Nat)
  | _, [] => []
  | k, none :: rest => replacedFrom profile (k + 1) rest
  | k, some p :: rest =>
    if p.profile = profile then (p.vertex, k) :: replacedFrom profile (k + 1) rest else replacedFrom profile (k + 1) rest

theorem replacedFrom_eq (profile : Nat) (ps : List (Option Patch)) (k : Nat) :
    replacedFrom profile k ps = (List.range ps.length).filterMap fun j =>
      match ps.getD j none with
      | none => none
      | some q => if q.profile = profile then some (q.vertex, k + j) else none := by
  induction ps generalizing k with
  | nil => rfl
  | cons x ps ih =>
    rw [List.length_cons, List.range_succ_eq_map, List.filterMap_cons, List.filterMap_map]
    have e : (List.range ps.length).filterMap ((fun j =>
        match (x :: ps).getD j none with
        | none => none
        | some q => if q.profile = profile then some (q.vertex, k + j) else none) ∘ Nat.succ)
          = replacedFrom profile (k + 1) ps := by
      rw [ih]; congr 1; funext j; simp [Nat.add_comm, Nat.add_left_comm]
    rw [e]
    cases x with
    | none => simp [replacedFrom]
    | some p => simp only [replacedFrom, List.getD_cons_zero]; split <;> simp

theorem replacedVertices_eq (profile : Nat) (ps : List (Option Patch)) :
    replacedVertices profile ps = replacedFrom profile 1 ps := by
  rw [replacedFrom_eq, replacedVertices]
  congr 1; funext j; simp [Nat.add_comm] <;> cases ps[j]?.getD none <;> rfl

/-- Patches that all lie below the vertex count are applied: each replaced vertex keeps its position and takes the plan of
its last patch. -/
theorem applyPatches_ok (profile : Nat) (ps : List (Option Patch)) (k : Nat) (vs : List Vertex) (done : List (Nat × Nat))
    (h : ∀ r ∈ replacedFrom profile k ps, r.1 < vs.length) :
    ∃ vs', applyPatches profile k ps vs done = .ok (vs', done ++ replacedFrom profile k ps) ∧ vs'.length = vs.length
      ∧ ∀ i, vs'[i]? = (vs[i]?).map fun v => Vertex.mk v.position ((patchedPlan profile i ps).getD v.plan) := by
  induction ps generalizing k vs done with
  | nil => exact ⟨vs, by simp [applyPatches, replacedFrom], rfl, by intro i; simp [patchedPlan]⟩
  | cons x ps ih =>
    cases x with
    | none =>
      obtain ⟨vs', a, b, c⟩ := ih (k + 1) vs done h
      exact ⟨vs', by simpa [applyPatches, replacedFrom] using a, b, by simpa [patchedPlan] using c⟩
    | some p =>
      by_cases hp : p.profile = profile
      · simp only [replacedFrom, hp, if_true] at h ⊢
        have h0 : p.vertex < vs.length := h _ (List.mem_cons_self ..)
        obtain ⟨vs', a, b, c⟩ := ih (k + 1) (vs.modify p.vertex fun v => { v with plan := p.plan })
          (done ++ [(p.vertex, k)]) (by intro r hr; simpa using h r (List.mem_cons_of_mem _ hr))
        refine ⟨vs', by simp [applyPatches, hp, h0, a], by simpa using b, ?_⟩
        intro i
        rw [c i, List.getElem?_modify]
        simp only [patchedPlan, List.filterMap_cons, id, List.filter_cons, hp]
        by_cases hi : p.vertex = i
        · subst hi; simp [List.getLast?_cons, h0]
        · simp [hi]
      · simp only [replacedFrom, hp, if_false] at h ⊢
        obtain ⟨vs', a, b, c⟩ := ih (k + 1) vs done h
        exact ⟨vs', by simpa [applyPatches, hp] using a, b, by simpa [patchedPlan, hp] using c⟩

/-- The first patch slot whose vertex lies outside the profile ends the building. -/
theorem applyPatches_error (profile : Nat) (ps : List (Option Patch)) (k₀ k : Nat) (vs : List Vertex)
    (done : List (Nat × Nat)) (q : Patch) (h : ps[k]? = some (some q)) (hq : q.profile = profile)
    (hv : vs.length ≤ q.vertex)
    (hj : ∀ (j : Nat) (r : Patch), j < k → ps[j]? = some (some r) → r.profile = profile → r.vertex < vs.length) :
    applyPatches profile k₀ ps vs done = .error (k₀ + k) := by
  induction ps generalizing k₀ k vs done with
  | nil => simp at h
  | cons x ps ih =>
    cases k with
    | zero => simp at h; subst h; simp [applyPatches, hq]; omega
    | succ k =>
      have tail (us : List Vertex) (d : List (Nat × Nat)) (hl : us.length = vs.length) :
          applyPatches profile (k₀ + 1) ps us d = .error (k₀ + (k + 1)) := by
        have := ih (k₀ + 1) k us d (by simpa using h) (by omega)
          (fun j r a b c => hl ▸ hj (j + 1) r (by omega) (by simpa using b) c)
        rw [this, Nat.add_assoc, Nat.add_comm 1]
      cases x with
      | none => rw [applyPatches, tail vs done rfl]
      | some p =>
        rw [applyPatches]
        split
        · rename_i hp
          rw [if_pos (hj 0 p (by omega) rfl hp), tail _ _ (by simp)]
        · exact tail vs done rfl

/-- The candidate is what the patches give. -/
theorem Candidate.apply {o : Order} {w : Working} {s : State} (h : Candidate o w s) :
    applyPatches o.profile 1 s.ord.patches (s.pst.slot o.profile).profile.vertices []
      = .ok (w.profile.vertices, w.replaced) := by
  obtain ⟨_, _, _, h4, h5, h6⟩ := h
  rw [replacedVertices_eq] at h4
  obtain ⟨vs', a, _, c⟩ := applyPatches_ok o.profile s.ord.patches 1 (s.pst.slot o.profile).profile.vertices []
    (by rw [← h4]; exact h5)
  have : vs' = w.profile.vertices := by apply List.ext_getElem?; intro i; rw [c i, h6 i]
  rw [a, ← h4, this, List.nil_append]

/-- Binding checks the candidate: it gives it, or refuses by where it fails (R168). -/
theorem Candidate.bind {o : Order} {w : Working} {s : State} (h : Candidate o w s) :
    bindOrder s.config (s.pst.slot o.profile) s.ord.patches o =
      match profileCheck s.config w.profile with
      | none => .ok w
      | some (code, i) =>
        match replacedBy w.replaced i with
        | some k => if code = .sliceCount ∨ code = .travelLength then .error (.profileInvalid code i)
                    else .error (.patchInvalid code i k)
        | none => .error (.profileInvalid code i) := by
  have ha := h.apply
  obtain ⟨h1, h2, h3, _⟩ := h
  obtain ⟨⟨wh, wv⟩, src, rev, rep⟩ := w
  simp only at h1 h2 h3 ha ⊢
  subst h1 h2 h3
  simp only [bindOrder, ha] <;>
    rcases profileCheck s.config ⟨(s.pst.slot o.profile).profile.header, wv⟩ with _ | ⟨code, i⟩ <;> first
      | rfl
      | (cases replacedBy rep i <;> rfl)

theorem replacedBy_eq_some {rs : List (Nat × Nat)} {i k : Nat} (h : (i, k) ∈ rs) (hu : ∀ r ∈ rs, r.1 = i → r.2 = k) :
    replacedBy rs i = some k := by
  unfold replacedBy
  cases e : rs.find? fun r => r.1 == i with
  | none => simp at e; exact absurd rfl (e i k h)
  | some r =>
    have hr : r.1 = i := by simpa using List.find?_some e
    simp [hu r (List.mem_of_find?_eq_some e) hr]

theorem replacedBy_eq_none {rs : List (Nat × Nat)} {i : Nat} (h : ∀ r ∈ rs, r.1 ≠ i) : replacedBy rs i = none := by
  unfold replacedBy
  rw [List.find?_eq_none.2 (by intro r hr; simpa using h r hr)]; rfl

/-- A start is refused as the table says, whatever a refusal and a removal then do. -/
theorem startRefusals_of_judge (want : Nat) (s : State) (refused : Status → List Byte → Prop)
    (removed : Order → List Order → Prop)
    (h : match judgeStart want s with
      | .ok _ => True
      | .error (.plain st) => refused st []
      | .error (.stale o) => ∀ rest, s.ord.queue = o :: rest → removed o rest
      | .error (.binding r) => refused r.status r.content) : StartRefusals want s refused removed := by
  refine ⟨?_, ?_, ?_, ?_⟩
  · intro a; simpa [judgeStart, a] using h
  · intro a b; simpa [judgeStart, a, b] using h
  · intro a b c; simpa [judgeStart, a, b, c] using h
  intro a b c
  refine ⟨?_, ?_⟩
  · intro d; simpa [judgeStart, a, b, c, d] using h
  · intro o rest d slot
    unfold judgeStart at h
    rw [if_neg (by simp [a]), if_neg b, if_neg (by simp [c]), d] at h
    dsimp only at h
    refine ⟨fun e f => ?_, fun e f => ?_, fun e f g => ?_⟩
    · rw [if_pos ⟨e, f⟩] at h; exact h
    · rw [if_neg (by rcases e with e | e <;> simp [e]),
        if_pos (show o.isStale (s.pst.slot o.profile) = true by simpa [Order.isStale] using f)] at h
      exact h rest rfl
    · have fresh : o.isStale (s.pst.slot o.profile) = false := by simp [Order.isStale]; exact ⟨f, g⟩
      rw [if_neg (by rcases e with e | e <;> simp [e]), if_neg (by simp [fresh])] at h
      refine ⟨fun k q h1 h2 h3 h4 => ?_, fun w hw => ?_⟩
      · have bad : bindOrder s.config (s.pst.slot o.profile) s.ord.patches o
            = .error (.patchInvalid .vertexCount 255 (1 + k)) := by
          simp only [bindOrder]
          rw [applyPatches_error o.profile s.ord.patches 1 k slot.profile.vertices [] q h1 h2 h3 h4]
        rw [bad] at h
        simpa [BindRefusal.status, BindRefusal.content, CheckCode.code, Nat.add_comm, byteOf] using h
      · rw [hw.bind] at h
        refine ⟨fun code i hc => ?_, fun hc => ?_⟩
        · rw [hc] at h
          refine ⟨fun k n1 n2 m u => ?_, fun out => ?_⟩
          · simpa [replacedBy_eq_some m u, n1, n2, BindRefusal.status, BindRefusal.content] using h
          · rcases out with out | out | out
            · cases e : replacedBy w.replaced i <;> simpa [e, out, BindRefusal.status, BindRefusal.content] using h
            · cases e : replacedBy w.replaced i <;> simpa [e, out, BindRefusal.status, BindRefusal.content] using h
            · simpa [replacedBy_eq_none out, BindRefusal.status, BindRefusal.content] using h
        · rw [hc] at h
          dsimp only at h
          refine ⟨fun x => ?_, fun x y z => ?_⟩
          · rw [if_pos (by rcases x with x | x <;> simp [x])] at h; exact h
          · rw [if_neg (by simp [x, y])] at h
            simp only [PstState.writingConfig] at z
            split at z <;> simp_all

/-- A start that may be taken is judged as taken, with its head order and candidate. -/
theorem judgeStart_ok {want : Nat} {o : Order} {rest : List Order} {w : Working} {s : State} (h : StartAllowed o w s)
    (hq : s.ord.queue = o :: rest) (hw : want = 0 ∨ o.tag = want) : judgeStart want s = .ok (o, w) := by
  obtain ⟨h1, h2, h3, h4, h5, h6, h7, h8, h9, h10⟩ := h
  have fresh : o.isStale (s.pst.slot o.profile) = false := by simp [Order.isStale]; exact ⟨h4, h5⟩
  unfold judgeStart
  rw [if_neg (by simp [h1]), if_neg h2, if_neg (by simp [h3]), hq]
  dsimp only
  rw [if_neg (by rcases hw with e | e <;> simp [e]), if_neg (by simp [fresh]), h6.bind, h7]
  dsimp only
  rw [if_neg (by simp [h8, h9])]
  simp only [PstState.writingConfig] at h10
  split <;> simp_all

/-! ### The slice table created -/

/-- The governing vertex of a position is the one whose span holds it (R1, R70). -/
theorem governing_eq {p : Profile} (h : p.vertices.Pairwise fun a b => a.position < b.position) {i pos : Nat}
    (hi : i + 1 < p.vertices.length) (hl : (p.vertex i).position ≤ pos) (hu : pos < (p.vertex (i + 1)).position) :
    governing p.vertices pos = i := by
  have vertex : ∀ k (hk : k < p.vertices.length), p.vertex k = p.vertices[k] := fun k hk => by
    simp [Profile.vertex, hk]
  have mono : ∀ a b (ha : a < p.vertices.length) (hb : b < p.vertices.length), a ≤ b →
      p.vertices[a].position ≤ p.vertices[b].position := fun a b ha hb hab => by
    rcases Nat.lt_or_eq_of_le hab with hlt | rfl
    · exact Nat.le_of_lt (List.pairwise_iff_getElem.1 h a b ha hb hlt)
    · exact Nat.le_refl _
  rw [vertex i (by omega)] at hl
  rw [vertex (i + 1) hi] at hu
  have taken : (p.vertices.dropLast.takeWhile fun v => decide (v.position ≤ pos)) = p.vertices.dropLast.take (i + 1) := by
    rw [List.takeWhile_eq_take_findIdx_not]
    by_cases he : i + 1 < p.vertices.dropLast.length
    · rw [List.findIdx_eq he |>.2]
      constructor
      · simpa using hu
      · intro j hj
        have := mono j i (by omega) (by omega) (by omega)
        simp; omega
    · have hlen : p.vertices.dropLast.length = i + 1 := by rw [List.length_dropLast] at he ⊢; omega
      rw [List.findIdx_eq_length.2, hlen]
      intro v hv
      obtain ⟨j, hj, rfl⟩ := List.mem_iff_getElem.1 hv
      have := mono j i (by rw [List.length_dropLast] at hj; omega) (by omega) (by omega)
      simp; omega
  rw [governing, taken, List.length_take, List.length_dropLast]
  omega

theorem replacedBy_isSome {rs : List (Nat × Nat)} {i : Nat} : (replacedBy rs i).isSome = true ↔ ∃ k, (i, k) ∈ rs := by
  simp [replacedBy, List.find?_isSome]

/-- A slice record as created is what R69 and R70 say. -/
theorem newSlice_created (w : Working) (k : Nat) : CreatedSlice w k (newSlice w k) := by
  refine ⟨rfl, rfl, rfl, rfl, rfl, rfl, rfl, rfl, rfl, rfl, rfl, rfl, rfl, rfl, fun i h hi hl hu => ?_⟩
  have g : (newSlice w k).gov = i := governing_eq h hi hl hu
  refine ⟨g, ?_, ?_, fun f => ?_⟩
  · rw [← g]; rfl
  · rw [← g]; rfl
  · rw [← replacedBy_isSome, ← g]
    show hasFlag (if (replacedBy w.replaced (newSlice w k).gov).isSome then SliceFlag.patched.word else 0) f = true ↔ _
    cases (replacedBy w.replaced (newSlice w k).gov).isSome <;> cases f <;> decide

end Sys2Proof.Machine
end

