-- ==== Sys2Proof/Tests/Slice0.lean ====
section
/-! SUPPORT. The model's own tests: the well-formedness smoke tests, the manual's worked figures, single commands on
small states, and for every statement with hypotheses a witness that meets them. Expected figures are the manual's. -/

namespace Sys2Proof.Tests

open Sys2Proof Sys2Proof.Machine

/-! ### Small states -/

/-- A vertex plan: power, speed 600, spindle 60, RING_A, no dwell. -/
def plan (power : Nat) : VertexPlan := ⟨power, 600, 60, 0, 0, 0, 0, 1, 0, false, 0⟩

/-- A header that passes the check: pitch 200, quench offset 400, soak time 1000. -/
def header : Header := ⟨List.replicate 16 0, 200, 400, 1000, 50, 1000, 0, 1000, 0, List.replicate 4 ⟨1, 0⟩⟩

def profile : Profile := ⟨header, [⟨2000, plan 500⟩, ⟨3000, plan 400⟩]⟩

def working : Working := ⟨profile, 1, 5, []⟩

def order : Order := ⟨7, 1, 5, 0x41 :: List.replicate 19 0, true⟩

/-- After start-up in IDLE, SETUP, every permit present, the LINE port holding authority, slot 1 VALID. -/
def idle : State :=
  { State.reset with
    startup := false
    lif := { LifState.reset with holder := some .line }
    pst := { PstState.reset with slots := ⟨.valid, 5, profile, 0⟩ :: List.replicate 31 Slot.factory }
    pfm := { PfmState.reset .powerOn with
      permits := permitAll true, permitInputs := permitAll true, selector := .setup, decoded := .setup } }

/-- A production scan of the small profile in a state, high mark 2100. -/
def scanning (st : ScanState) : State :=
  { idle with
    seq := { SeqState.reset with scanState := st, startSelector := some .auto }
    ord := { OrdState.reset with running := some order, working := some working }
    axc := { AxcState.reset with x := 2100, cmdPos := 2100000, highMark := some 2100, stallRef := 2100 }
    spg := { SpgState.reset with span := some (spanOf profile 0) }
    slt := { SltState.atStart working with mark := some 2100, underCoil := some 0 }
    cnv := { CnvState.reset with derate := 1000 } }

/-- The state a command answers, or the state itself where it stops. -/
def after (c : Instr) (s : State) : State :=
  match exec c s with
  | .next t => t
  | .fault _ | .refused _ => s

/-! ### Well-formedness refuses -/

theorem test_wf_tag_zero : (Instr.getStatus .line 0 []).wellFormed = false := by decide
theorem test_wf_payload_too_long : (Instr.beginProfile .line 1 (List.replicate 241 0)).wellFormed = false := by decide +kernel
theorem test_wf_encoder_beyond : (Instr.axisUpdate 250001 false false).wellFormed = false := by decide
theorem test_wf_startup_encoder_beyond :
    (Instr.startupEnd ⟨250001, false, false, false, false, ⟨permitAll true, false, false, false⟩⟩).wellFormed = false := by
  decide
theorem test_wf_micros : (Instr.rotationPulse 1000).wellFormed = false := by decide

/-! ### The manual's figures -/

/-- R187: the check value over "123456789". -/
theorem test_crc : crc16 [0x31, 0x32, 0x33, 0x34, 0x35, 0x36, 0x37, 0x38, 0x39] = 0x29B1 := by decide +kernel
/-- Section 2.6: the slope of the worked span. -/
theorem test_slope : Machine.slope 1100 700 3500 = -468 := by decide
/-- Section 2.6: the planned power at 13 750. -/
theorem test_ramp : rampValue 1100 700 (-468) 1750 = 900 := by decide
/-- Section 2.6: the DAC code of 868 under rating 2500. -/
theorem test_dac : dacCode 868 2500 = 1422 := by decide
/-- Section 4.8: the deviation of slice 50. -/
theorem test_deviation : energyDeviation 175210 181500 = -35 := by decide
/-- Section 4.8: the specific energy of slice 50. -/
theorem test_specific : specificEnergy 175210 200 = 8761 := by decide
/-- Section 4.8: the target of slice 50. -/
theorem test_target : halfUp (1089 * 1000 * 200) 1200 = 181500 := by decide
/-- R139: a feedback code of 1185 at full scale 3000. -/
theorem test_power_sample : powerSample 3000 1185 = 868 := by decide
/-- R140: 2647 reads 905 and is valid, 1258 reads 430 and is not. -/
theorem test_pyrometer : pyrometerReading 2647 = 905 ∧ readingValid 905 = true ∧ pyrometerReading 1258 = 430
    ∧ readingValid 430 = false := by decide
/-- Table 7-2: rating 2500, warn 350, trip 450. -/
theorem test_derate :
    [300, 350, 400, 426, 449, 450].map
      (derateLimit { ConfigRecord.defaults with rating := 2500, coolantWarn := 350, coolantTrip := 450 })
      = [2500, 2500, 1250, 600, 25, 0] := by decide
/-- Section 7.3: the coolant code 1744. -/
theorem test_coolant : coolantReading 1744 = 426 := by decide
/-- Section 4.6: the sample 868 cut at 14 000 between 13 999 and 14 001. -/
theorem test_split :
    (sampleParts 868 13999 14001
      [{ (newSlice working 0) with start := 13800, length := 200 }, { (newSlice working 0) with start := 14000 }]
      13999 0) = ([434, 434], 0) := by decide
/-- Three slices of 50 pu from 2000, slice 0 HEATING with the mark at 2099: h rose past its end in IGNITE (R122). -/
def passed : SltState :=
  { SltState.atStart working with
    table := [2000, 2050, 2100].map fun x => { newSlice working 0 with start := x, length := 50 }
    mark := some 2099, underCoil := some 0 }

/-- R79: the interval to 2101 is cut at 2100 alone; with h still at 2099 the HEATING slice takes the sample whole. -/
theorem test_split_passed : (passed.attribute 100 2101).table.map SliceRec.eAct = [0, 50, 50] := by decide
theorem test_whole_passed : (passed.attribute 100 2099).table.map SliceRec.eAct = [100, 0, 0] := by decide
/-- Section 4.8 (R87): 11 pulses at 4 a turn give 11 quarter turns, and 2 pulses at 1 a turn give 8. -/
theorem test_quarter_turns :
    ((({ SltState.atStart working with underCoil := some 0 }.countPulse 1).countPulse 1).table.map
      SliceRec.quarterTurns).head? = some 8 := by decide
/-- R78 and section 12.1: the slice count and the transit capacity of profile 14. -/
theorem test_counts : ceilDiv 28000 200 = 140 ∧ transitCapacity 200 4500 = 24 := by decide

/-! ### Single commands -/

theorem test_take_control_unheld :
    (after (.takeControl .service 1 []) { idle with lif := LifState.reset }).lif.holder = some .service := by decide
theorem test_take_control_locked :
    (after (.takeControl .service 1 [])
      { idle with lif := LifState.reset, pfm := PfmState.reset .powerOn }).lif.service.tx
      = [⟨1, 0x8C, [6, 0]⟩] := by decide
theorem test_unknown_length :
    (after (.trimAdjust .line 9 [0]) idle).lif.line.tx = [⟨9, 0x93, [2]⟩] := by decide
theorem test_trim_adjust_clamps : (after (.trimAdjust .line 9 [0xFF, 0xFF]) (scanning .scan)).spg.pendingScale = some 1200 := by
  decide
theorem test_marker_starts_frame :
    (after (.receiveByte .line 0xA5) idle).lif.line.collecting = true := by decide
theorem test_setpoint_slews : (after .setpointUpdate (scanning .scan)).spg.pCmd = 10 := by decide
theorem test_setpoint_dry_zero :
    (after .setpointUpdate { scanning .scan with seq := { SeqState.reset with scanState := .scan, kind := .dry } }).spg.pCmd
      = 0 := by decide
theorem test_axis_rest_count : (after (.axisUpdate 0 false false) idle).axc.restCount = 1 := by decide
theorem test_axis_high_mark : (after (.axisUpdate 2101 false false) (scanning .scan)).axc.highMark = some 2101 := by decide
theorem test_acknowledge :
    (after (.acknowledge .line 1 []) { idle with seq := { SeqState.reset with scanState := .halted } }).seq.scanState
      = .idle := by decide
theorem test_acknowledge_busy :
    (after (.acknowledge .line 1 [])
      { idle with seq := { SeqState.reset with scanState := .halted }, cnv := { CnvState.reset with state := .stopping } }).lif.line.tx
      = [⟨1, 0x91, [7]⟩] := by decide
theorem test_abort_in_approach : (after (.abortScan .service 1 []) (scanning .approach)).seq.scanState = .halted := by decide
theorem test_abort_quench_out : (after (.abortScan .service 1 []) (scanning .scan)).seq.scanState = .quenchOut := by decide
theorem test_abort_escalates :
    (after (.abortScan .line 2 []) (after (.abortScan .service 1 []) (scanning .scan))).seq.scanState = .flood := by decide
theorem test_soak_completes :
    (after .soakExpiry { scanning .soak with
      seq := { SeqState.reset with scanState := .soak, timer := some 0 } }).pfm.resultGood = true := by decide
theorem test_flood_expires :
    (after .floodTimerExpiry { scanning .flood with
      seq := { SeqState.reset with scanState := .flood, timer := some 0 } }).seq.scanState = .halted := by decide
theorem test_slice_leaves_heat :
    (after .trackingStep { scanning .scan with
      axc := { AxcState.reset with highMark := some 2201 } }).slt.underCoil = some 1 := by decide
theorem test_sample_credited :
    (after .trackingStep { scanning .scan with
      cnv := { CnvState.reset with pMeas := 30 } }).slt.table.head?.map SliceRec.eAct = some 30 := by decide
theorem test_quench_opens_flood :
    (after (.quenchUpdate false false false) (scanning .flood)).qch.flood.output = true := by decide
theorem test_quench_needs_permit :
    (after (.quenchUpdate false false false) { scanning .flood with
      pfm := PfmState.reset .powerOn }).qch.flood.output = false := by decide
theorem test_rotation_speed :
    (after (.rotationPulse 0) { idle with
      axc := { AxcState.reset with sincePulse := some 1000000 } }).axc.spindleSpeed = 60 := by decide
theorem test_flow :
    (after .flowUpdate { idle with
      qch := { QchState.reset with ringA := { CircuitRec.reset with pulses := 10 } } }).qch.ringA.flow = 60 := by decide
theorem test_revision_wraps :
    (after (.eraseComplete true) { idle with
      pst := { PstState.reset with
        slots := ⟨.writing, 65535, profile, 0⟩ :: List.replicate 31 Slot.factory, channel := some (.erase 1) } }).pst.slots.head?.map
      Slot.revision = some 1 := by decide
theorem test_configured_restart_resets :
    (after (.frameSent .line) { idle with
      lif := { LifState.reset with
        restartPending := true, line := { PortState.reset with tx := [⟨1, 0x9C, [0]⟩] } } }).pfm.resetCause
      = .restartRequest := by decide
theorem test_rotation_timer_counts_return :
    ((after (.axisUpdate 0 false false) { idle with
      axc := { AxcState.reset with
        rotation := .outOfBand, rotationTimer := 5, spindleCmd := 60, spindleSpeed := 60 } }).axc.rotationTimer) = 6 := by
  decide
theorem test_quick_stop_restarts_wait :
    (after .selectorChange { idle with
      pfm := { idle.pfm with selectorStable := 20, decoded := .locked }
      axc := { AxcState.reset with
        travel := .movingTo, moveKind := some .jog, waiting := .timed, waitTime := 7 } }).axc.waitTime = 0 := by decide
theorem test_not_ready_names_holder :
    (after (.takeControl .service 1 []) State.reset).lif.service.tx = [⟨1, 0x8C, [0x12, 0]⟩] := by decide

/-! ### Witnesses: the hypotheses of each clause of each statement, met together by one state -/

/-- LINE's receiver as given, the rest of the link at rest. -/
def receiving (collecting : Bool) (partialFrame : List Byte) (idleMs : Nat) : State :=
  { idle with
    lif := { LifState.reset with
      line := { PortState.reset with collecting := collecting, partialFrame := partialFrame, idleMs := idleMs } } }

def sending (tx : List Frame) (waiting : Option Frame) (buffer : List Frame) : State :=
  { idle with
    lif := { LifState.reset with
      line := { PortState.reset with
        tx := tx, waiting := waiting, inService := waiting, buffer := buffer } } }

def ack : Frame := ⟨1, 0x81, [0]⟩

def starting : State := { State.reset with startup := true }

def firstLevels (encoder : Nat) : FirstLevels := ⟨encoder, true, false, true, false, ⟨permitAll true, true, false, true⟩⟩

/-- A scan with profile p in force. -/
def running (p : Profile) (st : ScanState) : State :=
  { scanning st with
    ord := { OrdState.reset with running := some order, working := some ⟨p, 1, 5, []⟩ }
    slt := { SltState.atStart ⟨p, 1, 5, []⟩ with mark := some 2100, underCoil := some 0 } }

/-- Three vertices, a dwell at the middle one. -/
def profile3 : Profile :=
  ⟨header, [⟨2000, plan 500⟩, ⟨2400, { plan 400 with dwell := 100 }⟩, ⟨3000, plan 300⟩]⟩

/-- A scan with the small profile, or with the one of three vertices, and the axis as given. -/
def onAxis (st : ScanState) (a : AxcState) : State := { scanning st with axc := a }

def onAxis3 (st : ScanState) (a : AxcState) : State := { running profile3 st with axc := a }

theorem of_some {α : Type} {o : Option α} {a : α} {P : α → Prop} (e : o = some a) (h : P a) : ∀ b, o = some b → P b := by
  intro b hb; rw [e] at hb; cases hb; exact h

theorem of_none {α : Type} {o : Option α} {P : α → Prop} (e : o = none) : ∀ b, o = some b → P b := by
  intro b hb; rw [e] at hb; cases hb

theorem heatStays_of {h : Nat} {t : SltState}
    (e : (t.underCoil.all fun k => t.table[k]?.all fun r => decide (h < r.endPos)) = true) : HeatStays h t := by
  intro k r hk hr; simpa [hk, hr] using e

theorem quenchWaits_of {qp : Int} {t : SltState}
    (e : (t.atQuench.all fun k => t.table[k]?.all fun r => decide (qp < r.endPos)) = true)
    (f : (t.atQuench.isSome || t.transit.head?.all fun k => t.table[k]?.all fun r => decide (qp < r.start)) = true) :
    QuenchWaits qp t :=
  ⟨fun a r ha hr => by simpa [ha, hr] using e, fun a rest r hn ht hr => by simpa [hn, ht, hr] using f⟩

theorem witness_StepRunsFrontCommand :
    ({ idle with pending := [.resetPin, .stall] } : State).pending = .resetPin :: [.stall] := rfl

theorem witness_EmptyQueueStepIsOneMillisecond : idle.pending = [] := rfl

theorem witness_EveryCommandCompletes :
    250000 < 250001 ∧ idle.startup = false ∧ starting.startup = true ∧ (firstLevels 250001).encoder = 250001 := by decide

theorem witness_ResetRestsEveryBlock :
    Resets .powerOn .powerOn idle ∧ Resets .resetPin .resetPin idle
      ∧ Resets (.frameSent .line) .restartRequest
        { idle with
          lif := { LifState.reset with
            restartPending := true, line := { PortState.reset with tx := [⟨1, 0x9C, [0]⟩] } } } :=
  ⟨.inl ⟨rfl, rfl⟩, .inr (.inl ⟨rfl, rfl⟩), .inr (.inr ⟨.line, ⟨1, 0x9C, [0]⟩, [], rfl, rfl, rfl, rfl, rfl, rfl⟩)⟩

theorem witness_StartupEndTakesFirstLevels : starting.startup = true ∧ (firstLevels 250000).encoder ≤ 250000 := by decide

/-- Slot 1 WRITING, the other slots sound; no record stored. -/
theorem witness_StartupChecksStore :
    let s := { starting with
      pst := { PstState.reset with slots := ⟨.writing, 1, profile, 0⟩ :: List.replicate 31 Slot.factory } }
    s.startup = true ∧ s.pst.slots.length = 32 ∧ s.pfm.counts.length = 19 ∧ (s.pst.slot 1).state = .writing
      ∧ (s.pst.slot 32).state ≠ .writing ∧ s.pst.stored.written = false := by decide

/-- Each move of the receiver; and the frame 02 00 01 with a CRC of 0, each of the three grounds for discarding it. -/
theorem witness_ReceiverTakesByteByState :
    (((receiving false [] 0).lif.port .line).collecting = false ∧ (0xA4 : Byte) ≠ 0xA5)
      ∧ (((receiving true [] 6).lif.port .line).collecting = true ∧ 5 < ((receiving true [] 6).lif.port .line).idleMs)
      ∧ (((receiving true [] 5).lif.port .line).collecting = true ∧ ((receiving true [] 5).lif.port .line).idleMs ≤ 5
        ∧ ((receiving true [] 5).lif.port .line).partialFrame = []
        ∧ ((1 : Byte).toNat < 2 ∨ 242 < (1 : Byte).toNat) ∧ ((243 : Byte).toNat < 2 ∨ 242 < (243 : Byte).toNat))
      ∧ (((receiving true [] 0).lif.port .line).partialFrame ++ [(242 : Byte)] = 242 :: [] ∧ 2 ≤ (242 : Byte).toNat
        ∧ (242 : Byte).toNat ≤ 242 ∧ ([] : List Byte).length < (242 : Byte).toNat + 2)
      ∧ (((receiving true [2, 0, 1, 0] 5).lif.port .line).collecting = true
        ∧ ((receiving true [2, 0, 1, 0] 5).lif.port .line).idleMs ≤ 5
        ∧ ((receiving true [2, 0, 1, 0] 5).lif.port .line).partialFrame ++ [0] = 2 :: 0 :: 1 :: ([] ++ [0, 0])
        ∧ (2 : Byte).toNat = ([] : List Byte).length + 2 ∧ (2 : Byte).toNat ≤ 242)
      ∧ crc16 [2, 1, 1] ≠ BitVec.ofNat 16 (256 * (0 : Byte).toNat + (0 : Byte).toNat)
      ∧ (0 : Byte) = 0 ∧ 0x80 ≤ (0x80 : Byte).toNat := by decide +kernel

theorem witness_FrameBytesArriveAsRequest :
    (255 : Byte) ≠ 0 ∧ (List.replicate 240 (0 : Byte)).length ≤ 240 ∧ (idle.lif.port .line).collecting = false
      ∧ (idle.lif.port .line).partialFrame = [] ∧ (idle.lif.port .line).idleMs = 0 := by decide +kernel

theorem witness_SentFrameFreesItsPlace :
    (((sending [ack] none []).lif.port .line).tx = ack :: [] ∧ (sending [ack] none []).lif.restartPending = false
        ∧ ((sending [ack] none []).lif.port .line).waiting = none ∧ ((sending [ack] none []).lif.port .line).buffer = [])
      ∧ (((sending [ack] (some ack) []).lif.port .line).tx = ack :: []
        ∧ (sending [ack] (some ack) []).lif.restartPending = false
        ∧ ((sending [ack] (some ack) []).lif.port .line).waiting = some ack
        ∧ ((sending [ack] (some ack) []).lif.port .line).buffer = [])
      ∧ (((sending [ack] (some ack) [⟨2, 1, []⟩]).lif.port .line).tx = ack :: []
        ∧ (sending [ack] (some ack) [⟨2, 1, []⟩]).lif.restartPending = false
        ∧ ((sending [ack] (some ack) [⟨2, 1, []⟩]).lif.port .line).waiting = some ack
        ∧ ((sending [ack] (some ack) [⟨2, 1, []⟩]).lif.port .line).buffer = [⟨2, 1, []⟩]) := by decide

theorem witness_RequestWaitsOrIsNotReady :
    (1 : Byte) ≠ 0 ∧ ((sending [ack] (some ack) []).lif.port .line).inService.isSome = true
      ∧ ((starting.lif.port .line).inService = none ∧ (starting.lif.port .line).buffer = [] ∧ starting.startup = true)
      ∧ ({ idle with lif := { LifState.reset with restartPending := true } } : State).lif.restartPending = true := by decide

/-- A port that serves and holds authority: what the statements about single requests ask. -/
theorem witness_serving : (1 : Byte) ≠ 0 ∧ idle.serving .line ∧ idle.lif.holder = some .line := by decide

def inSelector (p : Selector) : State := { idle with pfm := { idle.pfm with selector := p, decoded := p } }

def staged : State :=
  { idle with
    pst := { idle.pst with
      stagedHeader := some header, stagedVertices := profile.vertices ++ List.replicate 94 Vertex.zero, supplied := 2 } }

/-- In the order of the clauses: no authority; a wrong length; JOG, WRITE_CONFIG and PROFILE_VERTICES with authority. -/
theorem witness_RequestRefusedBeforeItsRule :
    (idle.serving .service ∧ RequestKind.jog.needsAuthority = true ∧ idle.lif.holder ≠ some .service)
      ∧ (idle.serving .line ∧ RequestKind.restart.length = some 0 ∧ ([0] : List Byte).length ≠ 0
        ∧ RequestKind.restart.lengthLater = false ∧ RequestKind.restart ≠ .takeControl
        ∧ RequestKind.restart ≠ .releaseControl ∧ idle.lif.holder = some .line)
      ∧ ((inSelector .auto).serving .line ∧ (inSelector .auto).lif.holder = some .line
        ∧ (inSelector .auto).pfm.selector ≠ .setup ∧ (inSelector .auto).pfm.selector = .auto)
      ∧ (idle.pfm.selector = .setup ∧ idle.pfm.selector ≠ .auto ∧ ([0] : List Byte).length ≠ 4
        ∧ ([0] : List Byte).length ≠ 45 ∧ ([0] : List Byte).length < 2)
      ∧ idle.pst.stagedHeader = none
      ∧ (staged.serving .line ∧ staged.lif.holder = some .line ∧ staged.pst.stagedHeader.isSome = true
        ∧ (0 : Byte).toNat = 0 ∧ 12 < (13 : Byte).toNat ∧ 1 ≤ (12 : Byte).toNat ∧ (12 : Byte).toNat ≤ 12
        ∧ ([] : List Byte).length ≠ 19 * (12 : Byte).toNat) := by decide

theorem witness_GetStatusClearsOwnFlags : (1 : Byte) ≠ 0 ∧ idle.serving .line ∧ idle.seq.scanState = .idle := by decide

theorem witness_GetLiveCarriesLiveValues :
    (scanning .scan).serving .line ∧ (scanning .scan).axc.x < 4294967296 ∧ (scanning .scan).spg.pCmd < 65536
      ∧ (scanning .scan).cnv.pMeas < 65536 ∧ (scanning .scan).axc.vCmd < 65536
      ∧ (scanning .scan).axc.spindleSpeed < 65536 ∧ (scanning .scan).cnv.tMeas < 65536
      ∧ (scanning .scan).axc.highMark = some 2100 ∧ (scanning .scan).cnv.coolant = none
      ∧ (scanning .scan).slt.underCoil = some 0 ∧ (scanning .scan).slt.atQuench = none := by decide

def fault : Capture := ⟨.stall, .noItem, .scan, 2100, some 2100, some 0, some 0, 900, some 7⟩

def summary : Summary := ⟨7, order.shaft, 1, 5, [], .production, .good, none, List.replicate 11 0, 900, 3000, some 400⟩

/-- A state with a held fault, an order in the queue, a scan under way, a patch, a write and a summary. -/
theorem witness_PlainReadsChangeNothing :
    let s := { scanning .scan with
      pfm := { idle.pfm with firstFault := some fault }
      pst := { idle.pst with channel := some (.erase 2) }
      ord := { OrdState.reset with
        queue := [order], running := some order, patches := [some ⟨1, 1, plan 300⟩, none, none, none]
        summary := some summary } }
    s.serving .line ∧ s.pfm.firstFault = some fault ∧ idle.pfm.firstFault = none ∧ s.pfm.counts.length = 19
      ∧ s.ord.queue[0]? = some order ∧ s.ord.running = some order ∧ order.shaft.length = 20 ∧ s.pst.slots.length = 32
      ∧ (s.pst.slot 1).state = .valid ∧ s.pst.channel = some (.erase 2) ∧ idle.pst.channel = none
      ∧ s.ord.patches.length = 4 ∧ s.ord.patches[0]? = some (some ⟨1, 1, plan 300⟩) ∧ s.ord.patches[1]? = some none
      ∧ s.ord.summary = some summary ∧ summary.shaft.length = 20 ∧ summary.flagCounts.length = 11
      ∧ idle.ord.summary = none := by decide

/-- The header and the two chunks of the staging buffer, the working profile and a slot, and the rows that refuse. -/
theorem witness_ReadProfileByNamedProfile :
    idle.serving .line ∧ 33 ≤ (33 : Byte).toNat ∧ (254 : Byte).toNat ≤ 254
      ∧ idle.pst.stagedHeader = none
      ∧ (staged.serving .line ∧ staged.pst.stagedHeader = some header ∧ 12 * (0 : Byte).toNat < staged.pst.supplied
        ∧ staged.pst.supplied ≤ 12 * (1 : Byte).toNat)
      ∧ idle.ord.working = none
      ∧ ((scanning .scan).serving .line ∧ (scanning .scan).ord.working = some working
        ∧ 12 * (0 : Byte).toNat < working.profile.vertices.length
        ∧ working.profile.vertices.length ≤ 12 * (1 : Byte).toNat)
      ∧ ((idle.pst.slot 1).state = .valid ∧ 12 * (0 : Byte).toNat < (idle.pst.slot 1).profile.vertices.length
        ∧ (idle.pst.slot 1).profile.vertices.length ≤ 12 * (1 : Byte).toNat)
      ∧ (idle.pst.slot 32).state = .empty
      ∧ (({ idle with pst := { PstState.reset with slots := [⟨.writing, 1, profile, 0⟩] } } : State).pst.slot 1).state
        = .writing
      ∧ (({ idle with pst := { PstState.reset with slots := [⟨.invalid, 1, profile, 0⟩] } } : State).pst.slot 1).state
        = .invalid := by decide

theorem witness_ReadSlicesAnswersRecords :
    (scanning .scan).serving .line ∧ 1 ≤ (6 : Byte).toNat ∧ (6 : Byte).toNat ≤ 6 ∧ (0 : Byte).toNat = 0
      ∧ 7 ≤ (7 : Byte).toNat ∧ (scanning .scan).slt.table ≠ [] ∧ idle.slt.table = [] ∧ idle.serving .line
      ∧ 256 * (0 : Byte).toNat + (4 : Byte).toNat < (scanning .scan).slt.count
      ∧ (scanning .scan).slt.count ≤ 256 * (0 : Byte).toNat + (5 : Byte).toNat
      ∧ ((scanning .scan).slt.table[4]?.map SliceRec.start) = some 2800 := by decide

/-- A port with a notice mask and n frames to send. -/
def listening (mask : BitVec 6) (n : Nat) : PortState := { PortState.reset with mask := mask, tx := List.replicate n ack }

/-- A set of every kind and one of another kind; a reset; and for a notice a port that takes it with one place left, one
that is full, and one whose mask does not hold its kind. -/
theorem witness_SetNoticesReplacesOwnMask :
    idle.serving .service ∧ (63 : Byte).toNat < 64 ∧ 64 ≤ (64 : Byte).toNat ∧ Resets .powerOn .powerOn idle
      ∧ (listening 0x20 7).mask.getLsbD NoticeKind.selector.bit = true ∧ (listening 0x20 7).tx.length < 8
      ∧ 8 ≤ (listening 0x20 8).tx.length ∧ (listening 0x1F 8).mask.getLsbD NoticeKind.selector.bit = false :=
  ⟨by decide, by decide, by decide, .inl ⟨rfl, rfl⟩, by decide⟩

/-- The rows of R181, each port and holder. -/
theorem witness_TakeControlByTable :
    ((inSelector .locked).serving .line ∧ (inSelector .locked).pfm.selector = .locked)
      ∧ (let s := { idle with lif := LifState.reset };
        s.serving .line ∧ s.pfm.selector ≠ .locked ∧ s.lif.holder = none)
      ∧ (idle.serving .line ∧ idle.pfm.selector ≠ .locked ∧ idle.lif.holder = some .line)
      ∧ (let s := { idle with lif := { LifState.reset with holder := some .service } };
        s.serving .line ∧ s.pfm.selector ≠ .locked ∧ s.lif.holder = some .service)
      ∧ (idle.serving .service ∧ idle.pfm.selector = .setup)
      ∧ ((inSelector .auto).serving .service ∧ (inSelector .auto).pfm.selector = .auto
        ∧ (inSelector .auto).lif.holder = some .line) := by decide

theorem witness_ReleaseControlFreesAuthority :
    idle.serving .line ∧ idle.lif.holder = some .line ∧ idle.serving .service ∧ idle.lif.holder ≠ some .service := by decide

/-- The payload that enqueues order 8 for slot 1. -/
def enqueue : List Byte := [0, 8, 1, 0x41] ++ List.replicate 19 0 ++ [1]

/-- The order that the payload carries; the small state with its slot 1 in a state; and with a queue. -/
def enqueued : Order := ⟨8, 1, 0, 0x41 :: List.replicate 19 0, true⟩

def slotIn (st : SlotState) : State :=
  { idle with pst := { PstState.reset with slots := ⟨st, 5, profile, 0⟩ :: List.replicate 31 Slot.factory } }

def withQueue (tags : List Nat) : State :=
  { idle with ord := { OrdState.reset with queue := tags.map fun n => { order with tag := n } } }

/-- Taken; a profile number of 33; a queue of 4; a tag already queued; the slot WRITING, EMPTY and INVALID. -/
theorem witness_EnqueueAppendsOrder :
    (idle.serving .line ∧ idle.lif.holder = some .line ∧ enqueue.length = 24 ∧ field enqueue 0 2 = enqueued.tag
      ∧ field enqueue 2 1 = enqueued.profile ∧ (enqueue.drop 3).take 20 = enqueued.shaft
      ∧ (enqueued.lineStart = true ↔ byteAt enqueue 23 ≠ 0))
      ∧ (1 ≤ enqueued.tag ∧ 1 ≤ enqueued.profile ∧ enqueued.profile ≤ 32 ∧ ShaftText enqueued.shaft)
      ∧ (let bs : List Byte := enqueue.set 2 33;
        bs.length = 24 ∧ field bs 2 1 = ({ enqueued with profile := 33 } : Order).profile ∧ ¬ 33 ≤ 32)
      ∧ ((withQueue [1, 2, 3, 4]).serving .line ∧ (withQueue [1, 2, 3, 4]).lif.holder = some .line
        ∧ 4 ≤ (withQueue [1, 2, 3, 4]).ord.queue.length)
      ∧ ((withQueue [8]).ord.queue.length < 4 ∧ ∃ q ∈ (withQueue [8]).ord.queue, q.tag = enqueued.tag)
      ∧ (∀ st ∈ [SlotState.writing, .empty, .invalid, .valid], (slotIn st).serving .line
        ∧ (slotIn st).lif.holder = some .line ∧ (slotIn st).ord.queue.length < 4
        ∧ (¬ ∃ q ∈ (slotIn st).ord.queue, q.tag = enqueued.tag) ∧ ((slotIn st).pst.slot enqueued.profile).state = st) :=
  ⟨by decide, ⟨by decide, by decide, by decide, (shaftOk_iff _).1 (by decide)⟩, by decide, by decide, by decide, by decide⟩

def queued : State := { idle with ord := { OrdState.reset with queue := [order] } }

theorem witness_CancelRemovesOrder :
    queued.serving .line ∧ queued.lif.holder = some .line ∧ (∃ q ∈ queued.ord.queue, q.tag = 256 * 0 + 7)
      ∧ (∀ q ∈ queued.ord.queue, q.tag ≠ 256 * 0 + 8) ∧ queued.lif.holder ≠ some .service
      ∧ queued.serving .service := by decide

/-- The payload that patches vertex 1 of profile 1 through patch slot 4. -/
def patchBytes : List Byte := [4, 1, 1] ++ (plan 300).encode

/-- Patch slot 2 enabled for vertex 1 of profile 1. -/
def patchHeld : State := { idle with ord := { OrdState.reset with patches := [none, some ⟨1, 1, plan 300⟩, none, none] } }

/-- LOAD_PATCH taken, through slot 4 and again through the slot that holds it; slot number 5; a running scan; profile 32
with its slot EMPTY; vertex index 2 of a profile of two; another patch slot that names the vertex. CLEAR_PATCH of 4, of 5,
and in a scan. -/
theorem witness_PatchSlotsLoadAndClear :
    (idle.serving .line ∧ idle.lif.holder = some .line ∧ idle.scanRunning = false ∧ patchBytes.length = 19
      ∧ field patchBytes 0 1 = 4 ∧ (readPatch patchBytes).profile = 1 ∧ (readPatch patchBytes).vertex = 1
      ∧ (idle.pst.slot 1).state = .valid ∧ (idle.pst.slot 1).profile.vertices.length = 2
      ∧ idle.ord.patches = [none, none, none, none])
      ∧ (field (patchBytes.set 0 5) 0 1 = 5 ∧ ¬ 5 ≤ 4)
      ∧ ((scanning .scan).serving .line ∧ (scanning .scan).lif.holder = some .line
        ∧ (scanning .scan).scanRunning = true)
      ∧ ((readPatch (patchBytes.set 1 32)).profile = 32 ∧ (idle.pst.slot 32).state ≠ .valid)
      ∧ ((readPatch (patchBytes.set 2 2)).vertex = 2 ∧ (idle.pst.slot 1).profile.vertices.length ≤ 2)
      ∧ (patchHeld.serving .line ∧ patchHeld.lif.holder = some .line ∧ patchHeld.scanRunning = false
        ∧ (patchHeld.pst.slot 1).state = .valid ∧ 1 + 1 ≠ 4
        ∧ patchHeld.ord.patches[1]? = some (some ⟨1, 1, plan 300⟩))
      ∧ (4 : Byte).toNat ≤ 4 ∧ 4 < (5 : Byte).toNat := by decide

theorem witness_TrimAdjustSetsPendingScale :
    ((scanning .scan).serving .line ∧ (scanning .scan).lif.holder = some .line ∧ (scanning .scan).seq.scanState = .scan)
      ∧ ((scanning .dwell).serving .line ∧ (scanning .dwell).lif.holder = some .line
        ∧ (scanning .dwell).seq.scanState = .dwell)
      ∧ (idle.serving .line ∧ idle.lif.holder = some .line ∧ idle.seq.scanState ≠ .dwell ∧ idle.seq.scanState ≠ .scan)
      ∧ idle.serving .service ∧ idle.lif.holder ≠ some .service := by decide

theorem witness_ClearFaultsEmptiesRecord :
    (idle.serving .line ∧ idle.lif.holder = some .line ∧ idle.seq.scanState = .idle)
      ∧ ((scanning .halted).serving .line ∧ (scanning .halted).lif.holder = some .line
        ∧ (scanning .halted).seq.scanState = .halted)
      ∧ ((scanning .approach).serving .line ∧ (scanning .approach).lif.holder = some .line
        ∧ (scanning .approach).seq.scanState ≠ .idle ∧ (scanning .approach).seq.scanState ≠ .halted)
      ∧ idle.serving .service ∧ idle.lif.holder ≠ some .service := by decide

/-- At rest, and each of the four items that is not. -/
theorem witness_AcknowledgeNeedsPlantAtRest :
    ((scanning .halted).serving .line ∧ (scanning .halted).lif.holder = some .line
        ∧ (scanning .halted).seq.scanState = .halted ∧ (scanning .halted).cnv.state = .off
        ∧ (scanning .halted).qch = QchState.reset ∧ (scanning .halted).axc.travel = .stopped
        ∧ (scanning .halted).axc.spindleSpeed = 0)
      ∧ ({ scanning .halted with cnv := { CnvState.reset with state := .stopping } } : State).cnv.state ≠ .off
      ∧ (({ scanning .halted with
          qch := { QchState.reset with flood := { CircuitRec.reset with state := .opened } } } : State).qch.circuit
            .flood).state ≠ .closed
      ∧ (onAxis .halted { AxcState.reset with travel := .holding }).axc.travel ≠ .stopped
      ∧ (onAxis .halted { AxcState.reset with spindleSpeed := 60 }).axc.spindleSpeed ≠ 0
      ∧ (idle.serving .line ∧ idle.lif.holder = some .line ∧ idle.seq.scanState ≠ .halted) := by decide

/-- The last run of 12 that fits the buffer, from the supplied count; one from above it; and one past vertex 95. -/
theorem witness_StagedUploadFillsBuffer :
    idle.serving .line ∧ idle.lif.holder = some .line ∧ header.encode.length = 51
      ∧ (let s := { staged with pst := { staged.pst with supplied := 84 } };
        s.serving .line ∧ s.lif.holder = some .line ∧ s.pst.stagedHeader.isSome = true ∧ 1 ≤ (12 : Byte).toNat
          ∧ (12 : Byte).toNat ≤ 12 ∧ (List.replicate 228 (0 : Byte)).length = 19 * (12 : Byte).toNat
          ∧ (84 : Byte).toNat ≤ s.pst.supplied ∧ (84 : Byte).toNat + (12 : Byte).toNat ≤ 96
          ∧ s.pst.stagedVertices.length = 96 ∧ s.pst.supplied < (85 : Byte).toNat)
      ∧ (let s := { staged with pst := { staged.pst with supplied := 85 } };
        s.serving .line ∧ (85 : Byte).toNat ≤ s.pst.supplied
          ∧ 96 < (85 : Byte).toNat + (12 : Byte).toNat) := by decide +kernel

/-- Accepted, and refused by the check; the selector in AUTO; slot numbers 0 and 33; no header; a count above the supplied
count; the channel busy; the running scan's slot; and WRITE_CONFIG by each of its conditions. -/
theorem witness_StoreWriteBeginsAtAcceptance :
    (staged.serving .line ∧ staged.lif.holder = some .line ∧ staged.pfm.selector ≠ .auto ∧ staged.pst.channel = none
      ∧ staged.scanRunning = false ∧ staged.pst.stagedHeader = some header ∧ (2 : Byte).toNat ≤ staged.pst.supplied
      ∧ profileCheck staged.config ⟨header, staged.pst.stagedVertices.take 2⟩ = none
      ∧ profileCheck staged.config ⟨header, staged.pst.stagedVertices.take 1⟩ = some (.vertexCount, 255)
      ∧ (staged.pst.slot 1).state ≠ .empty ∧ (staged.pst.slot 32).state = .empty)
      ∧ ((inSelector .auto).serving .line ∧ (inSelector .auto).lif.holder = some .line
        ∧ (inSelector .auto).pfm.selector = .auto)
      ∧ ((0 : Byte).toNat = 0 ∧ 32 < (33 : Byte).toNat)
      ∧ (idle.pfm.selector ≠ .auto ∧ idle.pst.stagedHeader = none)
      ∧ staged.pst.supplied < (255 : Byte).toNat
      ∧ (let s := { staged with pst := { staged.pst with channel := some (.erase 2) } };
        s.serving .line ∧ s.lif.holder = some .line ∧ s.pfm.selector ≠ .auto ∧ s.pst.stagedHeader = some header
          ∧ (2 : Byte).toNat ≤ s.pst.supplied ∧ s.pst.channel.isSome = true)
      ∧ (let s := { scanning .scan with pst := staged.pst };
        s.serving .line ∧ s.lif.holder = some .line ∧ s.pfm.selector ≠ .auto ∧ s.pst.stagedHeader = some header
          ∧ (2 : Byte).toNat ≤ s.pst.supplied ∧ s.pst.channel = none ∧ s.scanRunning = true
          ∧ s.ord.working = some working ∧ working.source = (1 : Byte).toNat)
      ∧ ConfigRecord.defaults.encode.length = 45
      ∧ configCheck (ConfigRecord.read ConfigRecord.defaults.encode) = none
      ∧ configCheck (ConfigRecord.read (List.replicate 45 0)) = some 1 := by decide

theorem witness_RestartBecomesPending :
    (idle.serving .line ∧ idle.lif.holder = some .line ∧ idle.scanRunning = false ∧ idle.pst.channel = none)
      ∧ ((scanning .scan).serving .line ∧ (scanning .scan).lif.holder = some .line
        ∧ (scanning .scan).scanRunning = true)
      ∧ (let s := { idle with pst := { PstState.reset with channel := some (.erase 1) } };
        s.serving .line ∧ s.lif.holder = some .line ∧ s.scanRunning = false ∧ s.pst.channel.isSome = true) := by
  decide

/-- A START by request in SETUP, and by an edge. -/
def ready : State :=
  { idle with ord := { OrdState.reset with queue := [order], startStable := 5, startInput := true } }

/-- With no patch slot enabled the candidate is the slot's own profile. -/
theorem candidate_ready : Candidate order working ready := by
  refine ⟨rfl, rfl, rfl, rfl, (fun r h => nomatch h), fun i => ?_⟩
  show profile.vertices[i]? = (profile.vertices[i]?).map fun v => Vertex.mk v.position v.plan
  simp

theorem allowed_ready : StartAllowed order working ready :=
  ⟨by decide, by decide, by decide, by decide, by decide, candidate_ready, by decide, by decide, by decide, by decide⟩

theorem witness_StartBindsHeadOrder :
    StartReady order working ready ∧ ready.ord.queue = order :: [] ∧ ready.serving .line
      ∧ ready.lif.holder = some .line ∧ 256 * (0 : Byte).toNat + (7 : Byte).toNat = order.tag ∧ ready.startup = false
      ∧ ready.lif.restartPending = false ∧ 5 ≤ ready.ord.startStable ∧ ready.ord.startInput = true
      ∧ ready.ord.startLevel = false ∧ order.lineStart = true :=
  ⟨⟨allowed_ready, fun c => by cases c <;> decide, by decide⟩, by decide⟩

/-- A START with the lower switch OPEN, away from the approach, is in its way as free. -/
theorem witness_StartBindsHeadOrder_switch :
    approachBlocked working.profile.first { AxcState.reset with lowerOpen := true } = none
      ∧ approachBlocked working.profile.first { AxcState.reset with upperOpen := true, vCmd := 50 } = none := by decide

/-- Slices 0 and 4 of the small profile, their midpoints in the span of vertex 0. -/
theorem witness_StartBindsHeadOrder_slices :
    working.profile.sliceCount = 5 ∧ 2000 + 200 / 2 = 2100 ∧ 2000 + 4 * 200 + 200 / 2 = 2900
      ∧ working.profile.vertices.Pairwise (fun a b => a.position < b.position)
      ∧ 0 + 1 < working.profile.vertices.length ∧ (working.profile.vertex 0).position ≤ 2100
      ∧ 2900 < (working.profile.vertex 1).position := by decide

/-- R70: a slice whose governing vertex was replaced is created PATCHED. -/
theorem test_patched_slice :
    hasFlag (newSlice { working with replaced := [(0, 3)] } 4).flags .patched = true
      ∧ (newSlice working 4).flags = 0 := by decide

/-- Vertex 1 of profile 1 patched through patch slot 2, to a power the plan does not allow or to one outside the profile. -/
def patched (vertex power : Nat) : State :=
  { ready with ord := { ready.ord with patches := [none, some ⟨1, vertex, plan power⟩, none, none] } }

def patchedWorking (power : Nat) : Working := ⟨⟨header, [⟨2000, plan 500⟩, ⟨3000, plan power⟩]⟩, 1, 5, [(1, 2)]⟩

theorem candidate_patched : Candidate order (patchedWorking 1001) (patched 1 1001) := by
  refine ⟨rfl, rfl, rfl, by decide, by decide, fun i => ?_⟩
  rcases i with _ | _ | i
  · rfl
  · rfl
  · show ([] : List Vertex)[i]? = ([] : List Vertex)[i]?.map _
    simp

/-- Slot 1 too long for the travel: the whole-profile test fails though no patch does. -/
def tooLong : State :=
  { ready with
    pst := { ready.pst with inForce := { ConfigRecord.defaults with travelLength := 3000 } } }

/-- The conditions of Table 9-2 in turn, each failing first. -/
theorem witness_StartRefusedByTable :
    (ready.serving .line ∧ ready.lif.holder = some .line ∧ ready.ord.queue = order :: [] ∧ order.lineStart = true
        ∧ ready.startup = false ∧ 5 ≤ ready.ord.startStable ∧ ready.ord.startInput = true
        ∧ ready.ord.startLevel = false)
      ∧ (scanning .scan).seq.scanState ≠ .idle
      ∧ ({ ready with pfm := PfmState.reset .powerOn } : State).pfm.selector = .locked
      ∧ ({ ready with pfm := { ready.pfm with firstFault := some fault } } : State).pfm.firstFault.isSome = true
      ∧ idle.ord.queue = [] ∧ order.tag ≠ 8
      ∧ (ready.pst.slot order.profile).revision ≠ ({ order with revision := 4 } : Order).revision
      ∧ ((patched 2 300).ord.patches[1]? = some (some ⟨1, 2, plan 300⟩)
        ∧ ((patched 2 300).pst.slot order.profile).profile.vertices.length ≤ 2 ∧ (patched 2 300).ord.patches[0]? = some none)
      ∧ (Candidate order (patchedWorking 1001) (patched 1 1001)
        ∧ profileCheck (patched 1 1001).config (patchedWorking 1001).profile = some (.vtxPower, 1)
        ∧ (1, 2) ∈ (patchedWorking 1001).replaced)
      ∧ (Candidate order working tooLong ∧ profileCheck tooLong.config working.profile = some (.travelLength, 1))
      ∧ (Candidate order working ready ∧ profileCheck ready.config working.profile = none)
      ∧ ({ ready with pfm := { ready.pfm with permits := permitAll false } } : State).pfm.motionPermits = false
      ∧ ({ ready with pst := { ready.pst with channel := some (.config ConfigRecord.defaults) } } : State).pst.writingConfig
        = true := by
  refine ⟨by decide, by decide, by decide, by decide, by decide, by decide, by decide, by decide,
    ⟨candidate_patched, by decide, by decide⟩, ⟨candidate_ready, by decide⟩, ⟨candidate_ready, by decide⟩, by decide,
    by decide⟩

/-- RING_B in MISMATCH and the upper limit switch OPEN, at rest below x_0. -/
def standing : State :=
  { ready with
    qch := { QchState.reset with ringB := { CircuitRec.reset with state := .mismatch } }
    axc := { AxcState.reset with upperOpen := true } }

theorem witness_StartFindsStandingFaults :
    StartAllowed order working standing ∧ standing.ord.queue = order :: [] ∧ standing.pfm.counts.length = 19
      ∧ mismatched standing = [.ringB] ∧ approachBlocked working.profile.first standing.axc = some .upper
      ∧ standing.serving .line ∧ standing.lif.holder = some .line ∧ standing.startup = false
      ∧ 5 ≤ standing.ord.startStable ∧ standing.ord.startInput = true ∧ standing.ord.startLevel = false :=
  ⟨⟨by decide, by decide, by decide, by decide, by decide, candidate_ready, by decide, by decide, by decide, by decide⟩,
    by decide⟩

/-- A dwell with a slice under the coil and the upper switch OPEN. -/
def overtravel : State := onAxis .dwell { AxcState.reset with travel := .holding, highMark := some 2100, upperOpen := true }

/-- With the upper switch CLOSED no rise is forbidden. -/
theorem not_riseBlocked {s : State} (h : s.axc.upperOpen = false) : ¬ s.riseBlocked := fun r => by
  have := r.2.2.2.2.1; rw [h] at this; cases this

/-- Every state found, either policy and a dry scan; and an entry to QUENCH_OUT with a slice to drain, with none, and from
SOAK. -/
theorem witness_AbortScanByStateFound :
    (∀ st ∈ [ScanState.idle, .halted, .flood, .approach, .ignite, .dwell, .scan, .runout, .soak, .quenchOut],
      (scanning st).serving .service ∧ (scanning st).axc.upperOpen = false ∧ (scanning st).seq.scanState = st
        ∧ (scanning st).seq.kind = .production ∧ (scanning st).profile.header.policy ≠ 1)
      ∧ (running { profile with header := { header with policy := 1 } } .scan).profile.header.policy = 1
      ∧ ({ scanning .scan with seq := { SeqState.reset with scanState := .scan, kind := .dry } } : State).seq.kind = .dry
      ∧ ((scanning .scan).slt.underCoil.isSome = true ∧ (scanning .scan).axc.vCmd = 0)
      ∧ (overtravel.serving .service ∧ overtravel.riseBlocked ∧ overtravel.pfm.counts.length = 19)
      ∧ ∀ st ∈ [ScanState.scan, .soak],
        let s := { scanning st with slt := SltState.atStart working };
        s.serving .service ∧ s.axc.upperOpen = false ∧ s.slt.transit = [] ∧ s.slt.underCoil = none
          ∧ 0 < s.profile.header.soakTime := by
  simp only [State.riseBlocked]; decide

/-- Every command that raises a cause meets its condition somewhere; here those of the axis. -/
theorem witness_CauseIsTakenAndJudged_axis :
    Raises .stall .stall .noItem
        (onAxis .scan { AxcState.reset with travel := .tracking, vCmd := 50, stallTimer := 1000 })
      ∧ Raises .endOfMoveStall .stall .noItem (onAxis .scan { AxcState.reset with waiting := .timed, waitTime := 1000 })
      ∧ Raises (.limitSwitchChange .upper) .travelLimit (.limitSwitch .upper)
        (onAxis .scan { AxcState.reset with travel := .tracking, upperStable := 5, upperInput := true })
      ∧ Raises (.limitSwitchChange .lower) .travelLimit (.limitSwitch .lower)
        (onAxis .scan { AxcState.reset with travel := .tracking, lowerStable := 5, lowerInput := true })
      ∧ Raises .rotationSettlingExpiry .rotation .noItem
        (onAxis .scan { AxcState.reset with rotation := .settling, rotationTimer := 5000 })
      ∧ Raises .rotationOutOfBand .rotation .noItem
        (onAxis .scan { AxcState.reset with rotation := .outOfBand, rotationTimer := 201 }) := by
  simp [Raises]; decide

/-- FLOOD with a least flow of 900 and no pulses, its flow check in a state. -/
def flooding (c : FlowCheck) : State :=
  { scanning .flood with
    pst := { idle.pst with inForce := { idle.config with minFlowFlood := 900 } }
    qch := { QchState.reset with flood := { CircuitRec.reset with check := c } } }

/-- And those of the converter, the quench circuits and the permits. -/
theorem witness_CauseIsTakenAndJudged_rest :
    Raises .startTimerExpiry .converterNoStart .noItem { scanning .ignite with
        cnv := { CnvState.reset with state := .starting, startTimer := some 0 } }
      ∧ Raises (.convInputChange .convOn) .converterTrip .noItem { scanning .scan with
        cnv := { CnvState.reset with state := .running, onStable := 5, convOn := true } }
      ∧ Raises (.convInputChange .convFault) .converterTrip .noItem { scanning .scan with
        cnv := { CnvState.reset with state := .running, faultStable := 5, faultInput := true } }
      ∧ Raises .powerFeedback .powerFeedback .noItem { scanning .scan with
        cnv := { CnvState.reset with state := .running, deviationTimer := 500 } }
      ∧ Raises (.coolantSample 4095) .coolantHot .noItem (scanning .scan)
      ∧ Raises (.valveMismatch .flood) .valveMismatch (.circuit .flood) { scanning .scan with
        qch := { QchState.reset with flood := { CircuitRec.reset with disagree := 151 } } }
      ∧ Raises (.riseTimeExpiry .flood) .flowLow (.circuit .flood) { scanning .flood with
        qch := { QchState.reset with flood := { CircuitRec.reset with check := .rising, riseElapsed := 500 } } }
      ∧ Raises .flowUpdate .flowLow (.circuit .flood) (flooding .watching)
      ∧ Raises (.permitChange .estopClear) .estop .noItem { scanning .scan with
        pfm := { idle.pfm with
          permitStable := permitSet (permitAll 0) 5 .estopClear
          permitInputs := permitSet (permitAll true) false .estopClear } }
      ∧ (scanning .scan).pfm.counts.length = 19 ∧ (scanning .scan).axc.upperOpen = false := by
  simp [Raises, State.findsLow]; decide

/-- Slice 0 of the small profile HEATING; and one QUENCHING with one IN_TRANSIT behind it. -/
def heating : SltState := { (SltState.atStart working).beginHeating profile 1000 0 with mark := some 2100 }

def draining : SltState :=
  { SltState.atStart working with
    table := ((SltState.atStart working).table.set 0
      { newSlice working 0 with state := .quenching, leaveTime := some 0, enterTime := some 0 }).set 1
        { newSlice working 1 with state := .inTransit, leaveTime := some 0 }
    transit := [0, 1], atQuench := some 0 }

/-- QUENCH_OUT out of SCAN; FLOOD under policy 1 and out of QUENCH_OUT; STOP out of SCAN and out of a FLOOD whose marking is
unconfirmed. -/
theorem witness_AbortMarksSlices :
    (let s := { scanning .scan with slt := heating };
      s.seq.kind = .production ∧ s.serving .line ∧ s.axc.upperOpen = false ∧ s.profile.header.policy ≠ 1
        ∧ s.seq.scanState = .scan ∧ s.slt.underCoil = some 0 ∧ (s.slt.table[0]?.map SliceRec.state) = some .heating)
      ∧ (let s := running { profile with header := { header with policy := 1 } } .scan;
        s.seq.kind = .production ∧ s.serving .line ∧ s.profile.header.policy = 1 ∧ s.seq.scanState = .scan)
      ∧ (let s := { scanning .quenchOut with slt := draining };
        s.seq.kind = .production ∧ s.serving .line ∧ s.seq.scanState = .quenchOut
          ∧ (s.slt.table[0]?.map SliceRec.state) = some .quenching)
      ∧ (let s := { scanning .flood with
          slt := { draining with
            table := draining.table.set 0 ({ newSlice working 0 with state := .done }.flag .floodQuenched)
            floodStatus := .unconfirmed, flooded := [0] }
          qch := { QchState.reset with ringA := { CircuitRec.reset with disagree := 151 } } };
        s.seq.kind = .production ∧ s.seq.scanState = .flood ∧ (s.qch.circuit .ringA).state ≠ .mismatch
          ∧ 151 ≤ (s.qch.circuit .ringA).disagree ∧ s.slt.floodStatus = .unconfirmed ∧ 0 ∈ s.slt.flooded
          ∧ (s.slt.table[0]?.map SliceRec.state) = some .done ∧ 1 ∉ s.slt.flooded
          ∧ (s.slt.table[1]?.map SliceRec.state) = some .inTransit ∧ 2 ∉ s.slt.flooded
          ∧ (s.slt.table[2]?.map SliceRec.state) = some .pending) := by decide

/-- A scan whose state timer has run out; the carriage STOPPED, or as given. -/
def expired (st : ScanState) (phase : Option QuenchOutPhase) (travel : TravelState) : State :=
  { scanning st with
    seq := { SeqState.reset with scanState := st, timer := some 0, phase := phase }
    axc := { (scanning st).axc with travel := travel } }

theorem witness_StateTimersExpire :
    ((expired .dwell none .holding).seq.timer = some 0 ∧ (expired .dwell none .holding).seq.scanState = .dwell
        ∧ (expired .dwell none .holding).axc.upperOpen = false)
      ∧ (let s := { overtravel with seq := { overtravel.seq with timer := some 0 } };
        s.seq.timer = some 0 ∧ s.seq.scanState = .dwell ∧ s.axc.upperOpen = true ∧ s.axc.vCmd = 0
          ∧ s.pfm.counts.length = 19)
      ∧ ((expired .soak none .stopped).seq.timer = some 0 ∧ (expired .soak none .stopped).seq.scanState = .soak
        ∧ (expired .soak none .stopped).seq.kind = .production)
      ∧ ((expired .quenchOut (some .holding) .stopped).seq.timer = some 0
        ∧ (expired .quenchOut (some .holding) .stopped).seq.scanState = .quenchOut
        ∧ (expired .quenchOut (some .holding) .stopped).seq.phase = some .holding
        ∧ (expired .quenchOut (some .holding) .stopped).axc.travel = .stopped)
      ∧ ((expired .flood none .tracking).seq.timer = some 0 ∧ (expired .flood none .tracking).seq.scanState = .flood
        ∧ (expired .flood none .tracking).axc.travel ≠ .stopped) := by decide

/-- The indicators of both results are within reach: no flag set, and one set. -/
theorem witness_StateTimersExpire_results :
    (∀ r ∈ (expired .soak none .stopped).slt.table, r.flags = 0)
      ∧ hasFlag ((newSlice working 0).flag .energyLow).flags .energyLow = true := by decide

theorem witness_WriteCompletionLeavesTarget :
    idle.pst.slots.length = 32 ∧ idle.pfm.counts.length = 19
      ∧ ∀ job ∈ [WriteJob.commit 32 profile, .erase 1, .config ConfigRecord.defaults],
        ({ idle with pst := { idle.pst with channel := some job } } : State).pst.channel = some job := by decide

/-- The first update of the small scan: reading invalid, ACQUIRING, correction 0; a dry scan; a scan past x_last; other
states; a hold that expires. -/
theorem witness_SetpointUpdateRunsPipeline :
    (TrimRule (scanning .scan) ((scanning .scan).profile.vertex 0).plan 0 (scanning .scan).spg
        ∧ (scanning .scan).seq.kind = .production ∧ (scanning .scan).spg.span = some (spanOf profile 0)
        ∧ (scanning .scan).seq.scanState = .scan ∧ (scanning .scan).high < (scanning .scan).profile.last
        ∧ (scanning .scan).high < ((scanning .scan).profile.vertex 1).position)
      ∧ (scanning .dwell).seq.scanState = .dwell
      ∧ ({ scanning .scan with seq := { SeqState.reset with scanState := .scan, kind := .dry } } : State).seq.kind = .dry
      ∧ (onAxis .scan { AxcState.reset with highMark := some 3000 }).profile.last
        ≤ (onAxis .scan { AxcState.reset with highMark := some 3000 }).high
      ∧ idle.seq.scanState ≠ .dwell ∧ idle.seq.scanState ≠ .scan
      ∧ (let s := { scanning .scan with spg := { SpgState.reset with trim := .holding, holdTime := 199 } };
        s.seq.scanState = .scan ∧ s.spg.trim = .holding ∧ s.cnv.tValid = false ∧ 199 ≤ s.spg.holdTime) := by
  simp only [TrimRule]; decide

/-- The high mark at the middle vertex of the profile of three; and slice 0 leaving heat, slice 1 beginning it. -/
theorem witness_SpanChangeAndTargets :
    (let s := { onAxis3 .scan { AxcState.reset with x := 2400, cmdPos := 2400000, highMark := some 2400 } with
        spg := { SpgState.reset with span := some (spanAt profile3 0) } };
      s.seq.scanState = .scan ∧ s.spg.span = some (spanAt profile3 0) ∧ s.high < s.profile.last
        ∧ (s.profile.vertex (0 + 1)).position ≤ s.high ∧ 0 + 1 < s.profile.lastIndex)
      ∧ (let s := onAxis3 .scan { AxcState.reset with x := 2200, cmdPos := 2200000, highMark := some 2200 };
        s.seq.scanState = .scan ∧ s.axc.highMark = some 2200 ∧ s.slt.underCoil = some 0
          ∧ (s.slt.table[0]?.map fun r => (r.start, r.endPos)) = some (2000, 2200)
          ∧ (s.slt.table[1]?.map fun q => (q.endPos, q.start + q.length / 2)) = some (2400, 2300) ∧ 0 + 1 < s.slt.count
          ∧ QuenchWaits ((2200 : Nat) - (s.profile.header.quenchOffset : Int)) s.slt
          ∧ ((2200 : Nat) : Int) - s.profile.header.quenchOffset < (2000 : Nat)
          ∧ s.profile.vertices.Pairwise (fun a b => a.position < b.position) ∧ 0 + 1 < s.profile.vertices.length
          ∧ (s.profile.vertex 0).position ≤ 2300 ∧ 2300 < (s.profile.vertex 1).position) := by
  refine ⟨by decide, by decide, by decide, by decide, by decide, by decide, by decide,
    quenchWaits_of (by decide) (by decide), by decide⟩

/-- A jog under way in IDLE. -/
def jogging : State :=
  { idle with axc := { AxcState.reset with travel := .movingTo, moveKind := some .jog, target := some 6 } }

/-- The same at a speed of 100. -/
def jogMoving : State := { jogging with axc := { jogging.axc with vCmd := 100 } }

/-- The upper switch OPEN with x at 110 and the commanded position at 100 pu. -/
def jogLagging : State :=
  { idle with axc := { AxcState.reset with x := 110, cmdPos := 100000, upperOpen := true } }

/-- A target far off, and one within 5 pu; the refusals in turn; a target that lies below x and above the commanded position
under an OPEN upper switch; and a jog in motion with a target ahead that it runs on to, with one too near, and with one
behind. -/
theorem witness_JogSendsCarriage :
    (idle.serving .line ∧ idle.lif.holder = some .line ∧ idle.pfm.selector = .setup
      ∧ field [0, 0, 0x27, 0x10] 0 4 = 10000 ∧ idle.seq.scanState = .idle ∧ 10000 ≤ idle.config.travelLength
      ∧ idle.pfm.motionPermits = true ∧ idle.axc.travel = .stopped ∧ idle.axc.x < 10000 ∧ idle.axc.upperOpen = false
      ∧ idle.axc.vCmd = 0 ∧ approachBlocked 10000 idle.axc = none ∧ ¬ absDiff (1000 * 10000) idle.axc.cmdPos ≤ 5000
      ∧ field [0, 0, 0, 5] 0 4 = 5 ∧ approachBlocked 5 idle.axc = none ∧ absDiff (1000 * 5) idle.axc.cmdPos ≤ 5000)
      ∧ ((scanning .scan).serving .line ∧ (scanning .scan).pfm.selector = .setup
        ∧ (scanning .scan).seq.scanState ≠ .idle)
      ∧ (field [0, 255, 255, 255] 0 4 = 16777215 ∧ idle.config.travelLength < 16777215)
      ∧ ({ idle with pfm := { idle.pfm with permits := permitAll false } } : State).pfm.motionPermits = false
      ∧ ({ idle with axc := { AxcState.reset with travel := .brakingTo, moveKind := some .stop } } : State).axc.travel
        ≠ .stopped
      ∧ (jogLagging.axc.travel = .stopped ∧ jogLagging.axc.x < 10000 ∧ jogLagging.axc.upperOpen = true
        ∧ 10000 ≠ jogLagging.axc.x ∧ ¬ 10000 < jogLagging.axc.x)
      ∧ (106 < jogLagging.axc.x ∧ jogLagging.axc.lowerOpen = false ∧ jogLagging.pfm.counts.length = 19
        ∧ approachBlocked 106 jogLagging.axc = some .upper)
      ∧ (jogMoving.serving .line ∧ jogMoving.lif.holder = some .line ∧ jogMoving.seq.scanState = .idle
        ∧ jogMoving.axc.travel = .movingTo ∧ jogMoving.axc.moveKind = some .jog ∧ jogMoving.axc.vCmd ≠ 0
        ∧ jogMoving.axc.direction = .up ∧ jogMoving.axc.cmdPos < 1000 * 10000
        ∧ 100 * 100 + 2 * jogMoving.config.accel * 100 < 2 * jogMoving.config.accel * absDiff (1000 * 10000) jogMoving.axc.cmdPos
        ∧ 1 ≠ jogMoving.axc.x ∧ ¬ jogMoving.axc.cmdPos < 1000 * 0) := by decide

/-- An approach under way. -/
def approaching : State :=
  onAxis .approach { AxcState.reset with travel := .movingTo, moveKind := some .approach, target := some 2000 }

/-- A scan of three vertices tracking its plan at position x with speed v, the dwell of vertex 1 ahead. -/
def tracking (x v : Nat) : State :=
  { onAxis3 .scan { AxcState.reset with
      travel := .tracking, x := x, cmdPos := 1000 * x, highMark := some x, stallRef := x, vCmd := v, nextDwell := some 1 } with
    spg := { SpgState.reset with span := some (spanAt profile3 0), plannedSpeed := some 600 } }

/-- The same carriage rising at a hold speed of 50 in a state. -/
def risingAt (st : ScanState) (phase : Option QuenchOutPhase) : State :=
  { tracking 2999 40 with
    seq := { SeqState.reset with scanState := st, phase := phase }
    axc := { (tracking 2999 40).axc with holdSpeed := some 50 } }

theorem witness_AxisUpdateReadsAndMoves :
    (idle.startup = false ∧ 250000 ≤ 250000 ∧ (scanning .scan).seq.scanState.followsHigh = true)
      ∧ (jogging.axc.travel = .movingTo ∧ jogging.axc.moveKind = some .jog ∧ jogging.axc.target = some 6
        ∧ jogging.seq.scanState = .idle ∧ jogging.axc.waiting = .notWaiting ∧ jogging.axc.movePhase ≠ .reversing
        ∧ jogging.axc.direction = .up ∧ jogging.axc.cmdPos < 1000 * 6 ∧ jogging.follows 0
        ∧ 5000 < 1000 * 6 - jogging.axc.cmdPos)
      ∧ (approaching.axc.travel = .movingTo ∧ approaching.axc.moveKind = some .approach
        ∧ approaching.axc.target = some 2000 ∧ approaching.seq.scanState = .approach
        ∧ approaching.axc.posReport = false ∧ approaching.axc.waiting = .notWaiting
        ∧ approaching.axc.movePhase ≠ .reversing ∧ approaching.axc.direction = .up
        ∧ approaching.axc.cmdPos < 1000 * 2000 ∧ approaching.follows 0 ∧ 5000 < 1000 * 2000 - approaching.axc.cmdPos)
      ∧ ((tracking 2100 40).seq.scanState = .scan ∧ (tracking 2100 40).axc.travel = .tracking
        ∧ (tracking 2100 40).axc.waiting = .notWaiting
        ∧ (∀ j, (tracking 2100 40).axc.nextDwell = some j →
          (tracking 2100 40).axc.vCmd * (tracking 2100 40).axc.vCmd
            + 2 * (tracking 2100 40).config.accel * (tracking 2100 40).axc.vCmd
            < 2 * (tracking 2100 40).config.accel
              * (1000 * ((tracking 2100 40).profile.vertex j).position - (tracking 2100 40).axc.cmdPos))
        ∧ (tracking 2100 40).spg.plannedSpeed = some 600 ∧ (tracking 2100 40).axc.direction = .up
        ∧ (tracking 2100 40).belowLast 2100 ∧ (tracking 2100 40).rises 2100 ∧ (tracking 2100 40).follows 2100
        ∧ (tracking 2100 40).moves 2100)
      ∧ ((tracking 2999 40).seq.scanState = .scan ∧ (tracking 2999 40).axc.highMark = some 2999
        ∧ (tracking 2999 40).profile.last ≤ max 3000 2999 ∧ (tracking 2999 40).follows 3000
        ∧ (tracking 2999 40).rises 3000 ∧ (tracking 2999 40).axc.vCmd < 50 ∧ (tracking 2999 40).axc.direction = .up)
      ∧ (∀ q ∈ [(ScanState.runout, none), (.quenchOut, some QuenchOutPhase.draining)],
        (risingAt q.1 q.2).seq.scanState = q.1 ∧ (risingAt q.1 q.2).seq.phase = q.2
          ∧ (risingAt q.1 q.2).axc.travel = .tracking ∧ (risingAt q.1 q.2).axc.waiting = .notWaiting
          ∧ (risingAt q.1 q.2).axc.direction = .up ∧ (risingAt q.1 q.2).axc.holdSpeed = some 50)
      ∧ ((risingAt .runout none).follows 2999 ∧ (risingAt .runout none).rises 2999 ∧ (risingAt .runout none).moves 2999)
      ∧ (let s := { idle with axc := { AxcState.reset with upperStable := 5, upperInput := true } };
        5 ≤ s.axc.upperStable ∧ s.axc.upperInput ≠ s.axc.upperOpen ∧ s.axc.travel = .stopped)
      ∧ (let s := onAxis .scan { AxcState.reset with travel := .tracking, lowerStable := 5, lowerOpen := true };
        5 ≤ s.axc.lowerStable ∧ s.axc.lowerInput ≠ s.axc.lowerOpen ∧ s.axc.lowerInput = false) := by
  simp only [State.follows, State.moves]
  refine ⟨by decide, by decide, by decide, ⟨by decide, by decide, by decide, of_some rfl (by decide), by decide, by decide,
    of_some rfl (by decide), of_some rfl (by decide), by decide, by decide⟩, ⟨by decide, by decide, by decide, by decide,
    of_some rfl (by decide), by decide, by decide⟩, by decide, ⟨by decide, of_some rfl (by decide), by decide⟩, by decide,
    by decide⟩

/-- A jog under way in IDLE to a target, from position x in a direction with speed v. -/
def jogAt (d : Direction) (x v n : Nat) (phase : MovePhase) : State :=
  { idle with
    axc := { AxcState.reset with
      travel := .movingTo, moveKind := some .jog, target := some n, direction := d, x := x, cmdPos := 1000 * x, vCmd := v
      movePhase := phase } }

/-- Moves in either direction: speeding up, at the braking distance, ended within 5 pu, and past the target; and an approach
from above. -/
theorem witness_AxisUpdateReadsAndMoves_moves :
    (∀ m ∈ [(Direction.up, 1000, 2000), (.down, 1000, 0)], let s := jogAt m.1 m.2.1 40 m.2.2 .running
        s.startup = false ∧ s.axc.travel = .movingTo ∧ s.seq.scanState = .idle ∧ s.axc.waiting = .notWaiting
          ∧ s.follows 1000 ∧ s.axc.direction = m.1 ∧ aheadOf m.1 s.axc.cmdPos (1000 * m.2.2)
          ∧ 5000 < absDiff (1000 * m.2.2) s.axc.cmdPos)
      ∧ (∀ m ∈ [(Direction.up, 1006), (.down, 994)], let s := jogAt m.1 1000 600 m.2 .running
        aheadOf m.1 s.axc.cmdPos (1000 * m.2) ∧ s.follows 1000
          ∧ 2 * s.config.accel * absDiff (1000 * m.2) s.axc.cmdPos ≤ 600 * 600 + 2 * s.config.accel * 600)
      ∧ (∀ m ∈ [(Direction.up, 1005), (.down, 995)], let s := jogAt m.1 1000 50 m.2 .braking
        absDiff (1000 * m.2) s.axc.cmdPos ≤ 5000 ∧ s.axc.vCmd ≤ 50 ∧ s.follows 1000)
      ∧ (∀ m ∈ [(Direction.up, 999), (.down, 1001)], let s := jogAt m.1 1000 600 m.2 .running
        ¬ aheadOf m.1 s.axc.cmdPos (1000 * m.2) ∧ s.follows 1000)
      ∧ (let s := onAxis .approach { AxcState.reset with
          travel := .movingTo, moveKind := some .approach, target := some 2000, direction := .down, x := 2500
          cmdPos := 2500000, vCmd := 40 };
        s.seq.scanState = .approach ∧ s.axc.posReport = false ∧ s.follows 2500
          ∧ aheadOf .down s.axc.cmdPos (1000 * 2000)) := by
  simp only [State.follows, aheadOf]; decide

/-- A jog that must turn, above the last step of its braking; at it with the target within 5 pu, with the target further off
either way, and with the switch that way OPEN. -/
theorem witness_AxisUpdateReadsAndMoves_turn :
    (let s := jogAt .up 1000 600 0 .reversing;
      s.axc.movePhase = .reversing ∧ s.config.accel < s.axc.vCmd ∧ s.follows 1000)
      ∧ (let s := jogAt .up 1000 1 995 .reversing;
        s.axc.vCmd ≤ s.config.accel ∧ absDiff (1000 * 995) s.axc.cmdPos ≤ 5000 ∧ s.follows 1000)
      ∧ (∀ n ∈ [994, 1006], let s := jogAt .up 1000 1 n .reversing
        s.axc.vCmd ≤ s.config.accel ∧ 5000 < absDiff (1000 * n) s.axc.cmdPos
          ∧ s.axc.openToward (if s.axc.cmdPos < 1000 * n then .up else .down) = none)
      ∧ (∀ m ∈ [(994, LimitSwitch.lower), (1006, .upper)],
        let j := jogAt .up 1000 1 m.1 .reversing
        let s := { j with axc := { j.axc with upperOpen := true, lowerOpen := true } }
        s.axc.movePhase = .reversing ∧ s.axc.vCmd ≤ s.config.accel ∧ 5000 < absDiff (1000 * m.1) s.axc.cmdPos
          ∧ s.axc.openToward (if s.axc.cmdPos < 1000 * m.1 then .up else .down) = some m.2
          ∧ s.follows 1000 ∧ s.pfm.counts.length = 19) := by
  simp only [State.follows]; decide

/-- A scan that brakes onto its dwell vertex at 2400. -/
def dwellBraking (x v : Nat) : State :=
  { tracking x v with
    axc := { (tracking x v).axc with travel := .brakingTo, moveKind := some .dwell, target := some 2400 } }

/-- A controlled stop in HALTED, or the wait at a move's end. -/
def stopping (x v : Nat) (waiting : EndWait) : State :=
  onAxis .halted { AxcState.reset with
    travel := .brakingTo, moveKind := some .stop, x := x, cmdPos := 1000 * x, vCmd := v, waiting := waiting
    restCount := 9 }

/-- An approach in the wait at x_0, the spindle at a measured speed. -/
def approached (speed : Nat) : State :=
  onAxis .approach { AxcState.reset with
    travel := .movingTo, moveKind := some .approach, target := some 2000, x := 2000, cmdPos := 2000000, restCount := 9
    waiting := .timed, spindleCmd := 60, spindleSpeed := speed, rotation := .settling }

/-- HOLDING at x_0 in APPROACH with the spindle in band, the dwell of vertex 0 and the upper switch as given. -/
def held (kind : ScanKind) (dwell : Nat) (up : Bool) : State :=
  { running ⟨header, [⟨2000, { plan 500 with dwell := dwell }⟩, ⟨3000, plan 400⟩]⟩ .approach with
    seq := { SeqState.reset with scanState := .approach, kind := kind }
    axc := { AxcState.reset with
      travel := .holding, x := 2000, cmdPos := 2000000, restCount := 10, posReport := true, spindleCmd := 60
      spindleSpeed := 60, sincePulse := some 0, lastPeriod := some 1000000, rotation := .settling, upperOpen := up } }

/-- Braking onto the dwell begins far from it and at it; it goes on, and its wait begins. -/
theorem witness_AxisBrakesAndStops_dwell :
    ((tracking 2398 200).startup = false ∧ (tracking 2398 200).follows 2398 ∧ (tracking 2398 200).rises 2398
        ∧ (tracking 2398 200).moves 2398 ∧ (tracking 2398 200).seq.scanState = .scan
        ∧ (tracking 2398 200).belowLast 2398 ∧ (tracking 2398 200).axc.travel = .tracking
        ∧ (tracking 2398 200).axc.waiting = .notWaiting ∧ (tracking 2398 200).axc.nextDwell = some 1
        ∧ (tracking 2398 200).axc.direction = .up ∧ ((tracking 2398 200).profile.vertex 1).position = 2400
        ∧ 2 * (tracking 2398 200).config.accel * (1000 * 2400 - (tracking 2398 200).axc.cmdPos)
          ≤ 200 * 200 + 2 * (tracking 2398 200).config.accel * 200
        ∧ (tracking 2398 200).axc.cmdPos < 1000 * 2400 ∧ 50 < (tracking 2398 200).axc.vCmd)
      ∧ (1000 * 2400 ≤ (tracking 2400 50).axc.cmdPos ∧ (tracking 2400 50).belowLast 2400
        ∧ (tracking 2400 50).moves 2400)
      ∧ ((dwellBraking 2398 200).seq.scanState = .scan ∧ (dwellBraking 2398 200).belowLast 2398
        ∧ (dwellBraking 2398 200).follows 2398 ∧ (dwellBraking 2398 200).rises 2398
        ∧ (dwellBraking 2398 200).moves 2398 ∧ (dwellBraking 2398 200).axc.travel = .brakingTo
        ∧ (dwellBraking 2398 200).axc.waiting = .notWaiting ∧ (dwellBraking 2398 200).axc.target = some 2400
        ∧ (dwellBraking 2398 200).axc.direction = .up ∧ (dwellBraking 2398 200).axc.cmdPos < 1000 * 2400
        ∧ 50 < (dwellBraking 2398 200).axc.vCmd)
      ∧ ((dwellBraking 2396 50).axc.cmdPos < 1000 * 2400 ∧ 1000 * 2400 - (dwellBraking 2396 50).axc.cmdPos ≤ 5000
        ∧ (dwellBraking 2396 50).axc.vCmd ≤ 50) := by
  simp only [State.follows, State.moves]
  exact ⟨⟨by decide, by decide, of_some rfl (by decide), by decide, by decide, of_some rfl (by decide), by decide⟩,
    ⟨by decide, of_some rfl (by decide), by decide⟩,
    ⟨by decide, of_some rfl (by decide), by decide, of_some rfl (by decide), by decide⟩, by decide⟩

/-- A controlled stop above and at its last step, its wait, its end, the end of a dwell brake, and the end of an approach
out of band and in band. -/
theorem witness_AxisBrakesAndStops_ends :
    ((stopping 2500 100 .notWaiting).seq.scanState = .halted ∧ (stopping 2500 100 .notWaiting).follows 2500
        ∧ (stopping 2500 100 .notWaiting).rises 2500 ∧ (stopping 2500 100 .notWaiting).moves 2500
        ∧ (stopping 2500 100 .notWaiting).axc.travel = .brakingTo ∧ (stopping 2500 100 .notWaiting).axc.target = none
        ∧ (stopping 2500 100 .notWaiting).axc.direction = .up
        ∧ (stopping 2500 100 .notWaiting).config.accel < (stopping 2500 100 .notWaiting).axc.vCmd
        ∧ (stopping 2500 10 .notWaiting).axc.vCmd ≤ (stopping 2500 10 .notWaiting).config.accel)
      ∧ ((stopping 2500 0 .timed).axc.waiting = .timed ∧ 2501 ≠ (stopping 2500 0 .timed).axc.x
        ∧ (stopping 2500 0 .timed).follows 2501 ∧ (stopping 2500 0 .timed).moves 2501)
      ∧ ((stopping 2500 0 .timed).axc.moveKind = some .stop ∧ (stopping 2500 0 .timed).axc.vCmd = 0
        ∧ 2500 = (stopping 2500 0 .timed).axc.x ∧ 9 ≤ (stopping 2500 0 .timed).axc.restCount)
      ∧ (let s := { dwellBraking 2400 0 with
          axc := { (dwellBraking 2400 0).axc with waiting := .timed, restCount := 9 } };
        s.seq.scanState = .scan ∧ s.belowLast 2400 ∧ s.follows 2400 ∧ s.rises 2400 ∧ s.moves 2400
          ∧ s.axc.waiting ≠ .notWaiting ∧ s.axc.moveKind = some .dwell ∧ s.axc.nextDwell = some 1
          ∧ s.axc.target = some (s.profile.vertex 1).position ∧ s.axc.vCmd = 0 ∧ 2400 = s.axc.x ∧ 9 ≤ s.axc.restCount
          ∧ absDiff 2400 (s.profile.vertex 1).position ≤ 5 ∧ s.slt.underCoil = some 0)
      ∧ (∀ v ∈ [0, 60], (approached v).seq.scanState = .approach ∧ (approached v).follows 2000
        ∧ (approached v).moves 2000 ∧ (approached v).axc.waiting ≠ .notWaiting
        ∧ (approached v).axc.moveKind = some .approach
        ∧ (approached v).axc.target = some (approached v).profile.first ∧ (approached v).axc.vCmd = 0
        ∧ 2000 = (approached v).axc.x ∧ 9 ≤ (approached v).axc.restCount
        ∧ absDiff 2000 (approached v).profile.first ≤ 5 ∧ 0 < (approached v).config.pulsesPerRev
        ∧ (approached v).seq.kind = .production)
      ∧ ¬ (approached 0).bandNext
      ∧ ((approached 60).bandNext ∧ (approached 60).cnv.state = .off ∧ (approached 60).cnv.convOn = false)
      ∧ (approached 0).rises 2000 := by
  simp only [State.follows, State.moves, State.bandNext]
  exact ⟨⟨by decide, by decide, of_none rfl, by decide⟩, by decide, by decide,
    ⟨by decide, of_some rfl (by decide), by decide, of_some rfl (by decide), by decide⟩, by decide, by decide, by decide,
    of_none rfl⟩

/-- The spindle at 61 rpm by pulses a second apart, the last one 1.2 s ago: out of band at the next update, in band
before it; and at 59 rpm, in band. HOLDING at x_0 with the spindle in band: the converter still STOPPING; a dry scan
with a dwell at vertex 0, without, and with the upper switch OPEN. -/
theorem witness_AxisBrakesAndStops_band :
    (let s := { approached 61 with
        axc := { (approached 61).axc with sincePulse := some 1200000, lastPeriod := some 983607 } };
      s.speedNext = 50 ∧ ¬ s.bandNext)
      ∧ (let s := { approached 59 with
          axc := { (approached 59).axc with sincePulse := some 500000, lastPeriod := some 1016949 } };
        s.speedNext = 59 ∧ s.bandNext)
      ∧ (let s := { held .production 0 false with cnv := { CnvState.reset with state := .stopping } };
        s.bandNext ∧ s.seq.kind = .production ∧ s.cnv.state ≠ .off ∧ s.axc.waiting = .notWaiting
          ∧ s.axc.travel = .holding)
      ∧ ∀ d ∈ [0, 100], ∀ up ∈ [true, false],
        (held .dry d up).startup = false ∧ (held .dry d up).follows 2000 ∧ (held .dry d up).axc.highMark = none
          ∧ (held .dry d up).moves 2000 ∧ (held .dry d up).seq.scanState = .approach
          ∧ (held .dry d up).axc.vCmd = 0 ∧ 2000 = (held .dry d up).axc.x ∧ 9 ≤ (held .dry d up).axc.restCount
          ∧ absDiff 2000 (held .dry d up).profile.first ≤ 5 ∧ 0 < (held .dry d up).config.pulsesPerRev
          ∧ (held .dry d up).axc.waiting = .notWaiting ∧ (held .dry d up).axc.travel = .holding
          ∧ (held .dry d up).bandNext ∧ (held .dry d up).seq.kind = .dry ∧ (held .dry d up).axc.upperOpen = up
          ∧ ((held .dry d up).profile.vertex 0).plan.dwell = d ∧ (held .dry d up).pfm.counts.length = 19
          ∧ ((held .dry d up).slt.table[0]?.map fun r => r.start + r.length / 2) = some 2100 := by
  simp only [State.follows, State.moves, State.bandNext]
  refine ⟨by decide, by decide, by decide, by decide⟩

/-- The wait of a jog in position at its target, and out of position by one; a wait with no timing not at rest; one in
SCAN and one in APPROACH; and a controlled stop downward. -/
theorem witness_AxisBrakesAndStops_waits :
    (let j := jogAt .down 1000 0 1005 .running
     let s := { j with axc := { j.axc with waiting := .timed, waitTime := 7, restCount := 9 } };
      s.startup = false ∧ s.follows 1000 ∧ s.axc.highMark = none ∧ s.moves 1000 ∧ s.seq.scanState = .idle
        ∧ s.axc.waiting ≠ .notWaiting ∧ s.axc.moveKind = some .jog ∧ s.axc.target = some 1005
        ∧ absDiff 1000 1005 ≤ 5 ∧ s.axc.vCmd = 0 ∧ 1000 = s.axc.x ∧ 9 ≤ s.axc.restCount)
      ∧ (let j := jogAt .down 1000 0 1006 .running
         let s := { j with axc := { j.axc with waiting := .timed, waitTime := 7, restCount := 9 } };
        s.axc.waiting = .timed ∧ s.axc.target = some 1006 ∧ ¬ absDiff 1000 1006 ≤ 5 ∧ s.follows 1000)
      ∧ (let s := stopping 2500 0 .untimed;
        s.axc.waiting = .untimed ∧ s.axc.waiting ≠ .notWaiting ∧ 2501 ≠ s.axc.x ∧ s.follows 2501)
      ∧ (let s := { dwellBraking 2400 0 with axc := { (dwellBraking 2400 0).axc with waiting := .timed } };
        s.seq.scanState = .scan ∧ s.axc.waiting ≠ .notWaiting ∧ s.axc.highMark = some 2400 ∧ 2400 < s.profile.last
          ∧ ¬ 9 ≤ s.axc.restCount)
      ∧ ((approached 60).seq.scanState = .approach ∧ (approached 60).axc.travel ≠ .holding
        ∧ (approached 60).axc.posReport = false ∧ 2001 ≠ (approached 60).axc.x)
      ∧ (let s := { stopping 2500 100 .notWaiting with
          axc := { (stopping 2500 100 .notWaiting).axc with direction := .down } };
        s.seq.scanState = .halted ∧ s.axc.travel = .brakingTo ∧ s.axc.target = none ∧ s.axc.direction = .down
          ∧ s.config.accel < s.axc.vCmd ∧ s.follows 2500 ∧ s.moves 2500) := by
  simp only [State.follows, State.moves]; decide

/-- A carriage tracking in SCAN, the spindle at 60 rpm by pulses a second apart, some time after the last one. -/
def turns (r : RotationCheck) (since : Nat) : State :=
  onAxis .scan { AxcState.reset with
    travel := .tracking, x := 2100, cmdPos := 2100000, highMark := some 2100, stallRef := 2100, spindleCmd := 60
    spindleSpeed := 60, sincePulse := some since, lastPeriod := some 1000000, rotation := r, rotationTimer := 200 }

/-- An update that finds FOLLOWING, REVERSAL and STALL at once; one that finds STALL alone; and a scan by the state of the
rotation check, the spindle keeping its speed or slowing. -/
theorem witness_AxisSupervises :
    (let s := onAxis .scan { AxcState.reset with
        travel := .tracking, x := 2100, cmdPos := 2100000, highMark := some 2100, stallRef := 2100, vCmd := 50
        stallTimer := 999 };
      s.startup = false ∧ s.seq.scanState = .scan ∧ s.seq.kind = .production ∧ s.axc.travel ≠ .stopped
        ∧ s.belowLast 1800 ∧ s.pfm.counts.length = 19 ∧ ¬ s.follows 1800 ∧ s.axc.followOn = false
        ∧ ¬ s.rises 1800 ∧ s.axc.reversalOn = false ∧ ¬ s.moves 1800 ∧ 0 < s.config.stallTime
        ∧ s.belowLast 2100 ∧ s.follows 2100 ∧ s.rises 2100 ∧ ¬ s.moves 2100)
      ∧ ∀ r ∈ [RotationCheck.off, .settling, .inBand, .outOfBand], ∀ since ∈ [500000, 1200000],
        let s := (turns r since)
        s.startup = false ∧ s.axc.travel = .tracking ∧ s.axc.waiting = .notWaiting ∧ s.seq.scanState = .scan
          ∧ s.follows 2100 ∧ s.axc.highMark = some 2100 ∧ 2100 < s.profile.last ∧ s.moves 2100
          ∧ 0 < s.config.pulsesPerRev ∧ s.axc.rotation = r ∧ (s.bandNext ↔ since = 500000) := by
  simp only [State.follows, State.moves, State.bandNext]
  exact ⟨⟨by decide, by decide, by decide, by decide, of_some rfl (by decide), by decide, by decide, by decide,
    fun h => absurd (h 2100 rfl) (by decide), by decide, by decide, by decide, of_some rfl (by decide), by decide,
    of_some rfl (by decide), by decide⟩, by decide⟩

/-- FOLLOWING in every state in which the carriage moves, in either kind of scan; REVERSAL of a STOPPED carriage; neither
beginning; and STALL alone in RUNOUT. -/
theorem witness_AxisSupervises_states :
    (∀ st ∈ [ScanState.idle, .approach, .runout, .quenchOut, .halted], ∀ k ∈ [ScanKind.production, .dry],
        let s := { onAxis st { AxcState.reset with travel := .movingTo, x := 2100, cmdPos := 2100000 } with
          seq := { SeqState.reset with scanState := st, kind := k } }
        s.startup = false ∧ s.seq.scanState ≠ .scan ∧ ¬ s.follows 1800 ∧ s.axc.followOn = false
          ∧ s.axc.travel ≠ .stopped ∧ s.pfm.counts.length = 19)
      ∧ (∀ st ∈ [ScanState.soak, .flood],
        let s := onAxis st { AxcState.reset with x := 2100, cmdPos := 2100000, highMark := some 2100 }
        ¬ 2100 ≤ 1800 + s.config.reversalLimit ∧ s.axc.reversalOn = false ∧ s.seq.scanState.followsHigh = true
          ∧ s.axc.travel = .stopped ∧ s.pfm.counts.length = 19)
      ∧ idle.axc.travel = .stopped ∧ idle.seq.scanState.followsHigh = false
      ∧ (let s := onAxis .runout { AxcState.reset with
          travel := .tracking, x := 2100, cmdPos := 2100000, highMark := some 2100, stallRef := 2100, vCmd := 50
          stallTimer := 999 };
        s.seq.scanState ≠ .scan ∧ s.seq.scanState ≠ .approach ∧ s.follows 2100 ∧ s.rises 2100 ∧ ¬ s.moves 2100
          ∧ 0 < s.config.stallTime) := by
  simp only [State.follows, State.moves]
  exact ⟨by decide, by decide, by decide, by decide, by decide, by decide, by decide, of_some rfl (by decide), by decide⟩

/-- The first pulse since start-up, and a later one. -/
theorem witness_RotationPulseMeasuresSpeed :
    idle.startup = false ∧ 999 < 1000 ∧ idle.axc.sincePulse = none
      ∧ (let s := onAxis .scan { AxcState.reset with sincePulse := some 1000000, usInMs := 999 };
        s.startup = false ∧ s.axc.sincePulse = some 1000000 ∧ 0 < 1000000 + (999 - s.axc.usInMs)
          ∧ 0 < s.config.pulsesPerRev ∧ s.slt.underCoil = some 0) := by decide

/-- The converter channel as given, no scan under way. -/
def onChannel (c : CnvState) : State := { idle with cnv := c }

/-- A channel in STARTING that finds the converter on at a change of input i. -/
def starts (i : ConvInput) : CnvState :=
  match i with
  | .convOn => { CnvState.reset with state := .starting, enable := true, onStable := 5, onInput := true }
  | .convFault =>
    { CnvState.reset with
      state := .starting, enable := true, faultStable := 5, convFault := true, convOn := true, onInput := true }

/-- An update in each channel state; one that ends an approach; the channel found on outside IGNITE, by either input; a
level that only filters; a fault that only filters; and a converter found on after its stop time. -/
theorem witness_ChannelFollowsItsInputs :
    (∀ st ∈ [ChannelState.off, .starting, .running, .stopping], ∀ on ∈ [true, false],
        let s := onChannel { CnvState.reset with state := st, convOn := on, startTimer := some 9, stopTimer := some 9 }
        s.startup = false ∧ s.seq.scanState ≠ .approach ∧ s.cnv.state = st ∧ s.cnv.convOn = on)
      ∧ (let s := { held .production 0 false with
          axc := { (held .production 0 false).axc with bandReport := true }
          cnv := { CnvState.reset with state := .stopping, stopTimer := some 9 } };
        s.startup = false ∧ s.seq.scanState = .approach ∧ s.seq.kind = .production ∧ s.axc.posReport = true
          ∧ s.axc.bandReport = true ∧ s.cnv.convOn = false ∧ s.cnv.state = .stopping)
      ∧ (∀ i ∈ [ConvInput.convOn, .convFault], (onChannel (starts i)).cnv.findsOn i
        ∧ (onChannel (starts i)).seq.scanState ≠ .ignite)
      ∧ (let s := onChannel { CnvState.reset with state := .running, onStable := 5, onInput := true };
        5 ≤ s.cnv.onStable ∧ s.cnv.onInput ≠ s.cnv.convOn ∧ s.cnv.state = .running ∧ s.cnv.onInput = true)
      ∧ (let s := onChannel { CnvState.reset with state := .stopping, onStable := 5, convOn := true };
        5 ≤ s.cnv.onStable ∧ s.cnv.onInput ≠ s.cnv.convOn ∧ s.cnv.state = .stopping)
      ∧ (let s := onChannel { CnvState.reset with state := .running, faultStable := 5, convFault := true };
        5 ≤ s.cnv.faultStable ∧ s.cnv.faultInput ≠ s.cnv.convFault ∧ s.cnv.state = .running ∧ s.cnv.faultInput = false)
      ∧ (let s := onChannel { CnvState.reset with state := .stopping, stopTimer := some 0, convOn := true };
        s.cnv.state = .stopping ∧ s.cnv.stopTimer = some 0 ∧ s.cnv.convOn = true ∧ s.cnv.stuck = false
          ∧ s.pfm.counts.length = 19) := by
  simp only [CnvState.findsOn]; decide

/-- IGNITE with the converter found on by a change of input i, the profile p bound, the upper switch as given. -/
def igniting (i : ConvInput) (up : Bool) (p : Profile) : State :=
  { running p .ignite with
    axc := { AxcState.reset with
      travel := .holding, x := 2000, cmdPos := 2000000, highMark := some 2000, spindleCmd := 60, upperOpen := up }
    cnv := { starts i with derate := 1000 } }

/-- By either input, with no dwell at vertex 0 and with one, the upper switch OPEN and CLOSED. -/
theorem witness_ConverterOnBeginsHeat :
    ∀ i ∈ [ConvInput.convOn, .convFault], ∀ up ∈ [true, false], ∀ d ∈ [0, 100],
      let s := igniting i up ⟨header, [⟨2000, { plan 500 with dwell := d }⟩, ⟨3000, plan 400⟩]⟩
      s.cnv.findsOn i ∧ s.seq.scanState = .ignite ∧ s.axc.upperOpen = up ∧ s.axc.vCmd = 0
        ∧ s.pfm.counts.length = 19 ∧ (s.profile.vertex 0).plan.dwell = d
        ∧ (s.slt.table[0]?.map fun r => r.start + r.length / 2) = some 2100
        ∧ s.profile.vertices.Pairwise (fun a b => a.position < b.position) ∧ 0 + 1 < s.profile.vertices.length
        ∧ (s.profile.vertex 0).position ≤ 2100 ∧ 2100 < (s.profile.vertex 1).position := by
  simp only [CnvState.findsOn]; decide

/-- A coolant sample of 42.6 °C: under the trip with the command at 100 and with it above the derated ceiling of 240; and a
sample above the trip outside the heat states. -/
theorem witness_SamplesBecomeReadings :
    let s (power : Nat) : State :=
      { scanning .scan with spg := { (scanning .scan).spg with pCmd := power, pPrev := power } }
    (s 100).startup = false ∧ halfUp ((1744 : AdcCode).toNat * 1000) 4095 = 426
      ∧ (s 100).config.coolantWarn < 426 ∧ 426 < (s 100).config.coolantTrip
      ∧ (s 100).config.rating * ((s 100).config.coolantTrip - 426)
        / ((s 100).config.coolantTrip - (s 100).config.coolantWarn) = 240
      ∧ min (s 100).profile.header.ceiling (min (s 100).config.rating 240) = 240 ∧ (s 100).spg.pCmd ≤ 240
      ∧ 240 < (s 900).spg.pCmd ∧ (s 900).startup = false
      ∧ idle.startup = false ∧ idle.seq.scanState.isHeat = false
      ∧ idle.config.coolantTrip ≤ halfUp ((4095 : AdcCode).toNat * 1000) 4095 := by decide

/-- A tracking step from 2049 to a high mark over slices of 50 and 2 pu from 2000. -/
def cutting (h : Nat) : State :=
  { scanning .scan with
    axc := { (scanning .scan).axc with highMark := some h }
    slt := { SltState.atStart working with
      table := [{ newSlice working 0 with length := 50 }, { newSlice working 1 with start := 2050, length := 2 }]
      count := 2, mark := some 2049, underCoil := some 0 } }

/-- A sample with no slice under the coil, one in an interval without an end, one cut at one end, one cut at two. -/
theorem witness_SampleEnergyIsConserved :
    (let s := { scanning .runout with slt := SltState.atStart working };
      s.seq.scanState = .runout ∧ s.axc.highMark = some 2100 ∧ s.slt.allEnergy + s.cnv.pMeas ≤ 4294967295
        ∧ s.slt.underCoil = none)
      ∧ (∀ h ∈ [2049, 2050, 2053], (cutting h).axc.highMark = some h ∧ (cutting h).seq.scanState = .scan
        ∧ (cutting h).slt.allEnergy + (cutting h).cnv.pMeas ≤ 4294967295 ∧ (cutting h).slt.underCoil = some 0
        ∧ 0 < (cutting h).slt.table.length ∧ (cutting h).slt.mark = some 2049
        ∧ (cutting h).slt.table.map SliceRec.endPos = [2050, 2052])
      ∧ ((cutting 2053).slt.table.filter fun r => decide (2049 < r.endPos) && decide (r.endPos < 2053)).length ≤ 2 := by
  decide

/-- A scan of profile p in a state, its quench point at h − 400, the lists of the slice tracker as given. -/
def atMark (p : Profile) (q : SeqState) (h : Nat) (coil quench : Option Nat) (transit : List Nat) : State :=
  { running p q.scanState with
    seq := q
    axc := { AxcState.reset with x := h, cmdPos := 1000 * h, highMark := some h }
    slt := { SltState.atStart ⟨p, 1, 5, []⟩ with mark := some h, underCoil := coil, atQuench := quench, transit := transit } }

def inScan : SeqState := { SeqState.reset with scanState := .scan }

/-- Slice 0 leaves heat and slice 1 begins; and the last slice leaves it. -/
theorem witness_SlicesMoveThroughStates_heat :
    (let s := atMark profile inScan 2200 (some 0) none [];
      s.axc.highMark = some 2200 ∧ s.seq.scanState = .scan ∧ s.slt.underCoil = some 0
        ∧ (s.slt.table[0]?.map fun r => (r.start, r.endPos)) = some (2000, 2200)
        ∧ (s.slt.table[1]?.map SliceRec.endPos) = some 2400 ∧ 0 + 1 < s.slt.count
        ∧ QuenchWaits ((2200 : Nat) - (s.profile.header.quenchOffset : Int)) s.slt
        ∧ ((2200 : Nat) : Int) - s.profile.header.quenchOffset < (2000 : Nat))
      ∧ (let s := atMark profile { SeqState.reset with scanState := .runout } 3000 (some 4) (some 3) [3];
        s.axc.highMark = some 3000 ∧ s.slt.underCoil = some 4 ∧ (s.slt.table[4]?.map SliceRec.endPos) = some 3000
          ∧ 4 + 1 = s.slt.count ∧ QuenchWaits ((3000 : Nat) - (s.profile.header.quenchOffset : Int)) s.slt) := by
  exact ⟨⟨by decide, by decide, by decide, by decide, by decide, by decide,
    quenchWaits_of (by decide) (by decide), by decide⟩, by decide, by decide, by decide, by decide,
    quenchWaits_of (by decide) (by decide)⟩

/-- Slice 0 enters quench, the pattern restarting; slice 1 enters it, the pattern going on. -/
theorem witness_SlicesMoveThroughStates_enter :
    (let s := atMark profile inScan 2450 (some 2) none [0, 1];
      HeatStays 2450 s.slt ∧ s.axc.highMark = some 2450 ∧ s.seq.scanState = .scan ∧ s.slt.atQuench = none
        ∧ s.slt.transit = 0 :: [1] ∧ (s.slt.table[0]?.map fun r => (r.start, r.endPos)) = some (2000, 2200)
        ∧ ((2000 : Nat) : Int) ≤ (2450 : Nat) - s.profile.header.quenchOffset
        ∧ ((2450 : Nat) : Int) - s.profile.header.quenchOffset < (2200 : Nat))
      ∧ (let s := atMark profile inScan 2650 (some 3) none [1, 2];
        HeatStays 2650 s.slt ∧ s.slt.atQuench = none ∧ s.slt.transit = 1 :: [2]
          ∧ (s.slt.table[1]?.map fun r => (r.start, r.endPos)) = some (2200, 2400)
          ∧ ((2200 : Nat) : Int) ≤ (2650 : Nat) - s.profile.header.quenchOffset
          ∧ ((2650 : Nat) : Int) - s.profile.header.quenchOffset < (2400 : Nat)
          ∧ s.slt.table[1]?.map SliceRec.gov = s.slt.table[0]?.map SliceRec.gov) := by
  exact ⟨⟨heatStays_of (by decide), by decide⟩, heatStays_of (by decide), by decide⟩

/-- The bounds under which slice k, at quench, leaves it at high mark h: its end reached, no slice under the coil before it,
the next one's end not reached. -/
def leaves (s : State) (h k : Nat) : Bool :=
  let qp : Int := (h : Int) - s.profile.header.quenchOffset
  s.axc.highMark == some h && s.slt.atQuench == some k && s.slt.transit.head? == some k
    && s.slt.table[k]?.any (fun r => decide ((r.endPos : Int) ≤ qp))
    && s.slt.underCoil.all (fun j => decide (k < j))
    && s.slt.transit.tail.head?.all (fun a => a != k && s.slt.table[a]?.all fun b => decide (qp < b.endPos))

/-- A scan of the small profile with soak time n in RUNOUT, or in QUENCH_OUT draining, its last slice leaving quench. -/
def lastLeaves (n : Nat) (st : ScanState) : State :=
  atMark { profile with header := { header with soakTime := n } }
    { SeqState.reset with scanState := st, phase := if st = .quenchOut then some .draining else none }
    3400 none (some 4) [4]

/-- Slice 0 leaves quench with slice 1 behind it, then with slice 2 not yet there; the last slice leaves it in RUNOUT and
in QUENCH_OUT, with a soak time and without. -/
theorem witness_SlicesMoveThroughStates_leave :
    (let s := atMark profile inScan 2650 (some 3) (some 0) [0, 1, 2];
      HeatStays 2650 s.slt ∧ leaves s 2650 0 = true ∧ (s.slt.table[1]?.map SliceRec.start) = some 2200
        ∧ ((2200 : Nat) : Int) ≤ (2650 : Nat) - s.profile.header.quenchOffset)
      ∧ (let s := atMark profile inScan 2650 (some 3) (some 0) [0, 2];
        HeatStays 2650 s.slt ∧ leaves s 2650 0 = true ∧ (s.slt.table[2]?.map SliceRec.start) = some 2400
          ∧ ((2650 : Nat) : Int) - s.profile.header.quenchOffset < (2400 : Nat))
      ∧ ∀ n ∈ [0, 1000], ∀ st ∈ [ScanState.runout, .quenchOut],
        (lastLeaves n st).slt.underCoil = none ∧ leaves (lastLeaves n st) 3400 4 = true
          ∧ (lastLeaves n st).slt.transit = [4] ∧ (lastLeaves n st).profile.header.soakTime = n
          ∧ (lastLeaves n st).seq.scanState = st
          ∧ (st = .quenchOut → (lastLeaves n st).seq.phase = some .draining) := by
  exact ⟨⟨heatStays_of (by decide), by decide⟩, ⟨heatStays_of (by decide), by decide⟩, by decide⟩

/-- A step at which no slice changes its state, one of them in transit for longer than the limit. -/
theorem witness_SlicesMoveThroughStates_late :
    let s := { atMark profile { inScan with clock := 1001 } 2300 (some 1) none [] with
      slt := { SltState.atStart working with
        table := (SltState.atStart working).table.set 0 { newSlice working 0 with state := .inTransit, leaveTime := some 0 }
        mark := some 2300, underCoil := some 1, transit := [0] } }
    s.axc.highMark = some 2300 ∧ s.seq.scanState = .scan ∧ HeatStays 2300 s.slt
      ∧ QuenchWaits ((2300 : Nat) - (s.profile.header.quenchOffset : Int)) s.slt
      ∧ (s.slt.table[0]?.map fun r => (r.state, r.leaveTime)) = some (.inTransit, some 0)
      ∧ s.profile.header.maxTransfer < s.seq.clock - 0 := by
  exact ⟨by decide, by decide, heatStays_of (by decide), quenchWaits_of (by decide) (by decide), by decide⟩

/-- A slice at quench on pattern 1; SOAK and the holding of QUENCH_OUT after slice 4; draining; a dry scan; FLOOD; and
circuits in MISMATCH. -/
theorem witness_QuenchUpdateGatesValves :
    (let s := { atMark profile inScan 2450 (some 2) (some 0) [0, 1] with
        qch := { QchState.reset with patternMark := some 2000 } };
      s.startup = false ∧ s.seq.kind = .production ∧ s.seq.scanState = .scan ∧ s.slt.atQuench = some 0
        ∧ (s.slt.table[0]?.map SliceRec.start) = some 2000 ∧ s.axc.highMark = some 2450 ∧ s.qch.patternMark = some 2000)
      ∧ (scanning .scan).slt.atQuench = none
      ∧ (∀ q ∈ [{ SeqState.reset with scanState := .soak },
          { SeqState.reset with scanState := .quenchOut, phase := some .holding }],
        let s := { scanning q.scanState with seq := q, slt := { SltState.atStart working with lastDone := some 4 } }
        s.startup = false ∧ s.seq.kind = .production ∧ s.seq = q ∧ s.slt.lastDone = some 4
          ∧ (s.slt.table[4]?.map SliceRec.start) = some 2800)
      ∧ (scanning .soak).slt.lastDone = none
      ∧ ((lastLeaves 1000 .quenchOut).seq.scanState = .quenchOut ∧ (lastLeaves 1000 .quenchOut).seq.phase = some .draining
        ∧ (lastLeaves 1000 .quenchOut).slt.atQuench = some 4 ∧ (lastLeaves 1000 .quenchOut).startup = false)
      ∧ (scanning .flood).seq.kind = .production
      ∧ ({ scanning .scan with seq := { SeqState.reset with scanState := .scan, kind := .dry } } : State).seq.kind = .dry
      ∧ (let s := { scanning .scan with
          qch := { QchState.reset with ringB := { CircuitRec.reset with state := .mismatch, agree := 150 } } };
        s.startup = false ∧ (s.qch.circuit .ringB).state = .mismatch ∧ 150 ≤ (s.qch.circuit .ringB).agree
          ∧ (s.qch.circuit .ringA).state ≠ .mismatch) := by decide

/-- A FLOOD circuit not WATCHING, one reported already and one reported now; a WATCHING ring found low; and a ring whose
rise time passes. -/
theorem witness_FlowIsFormedAndChecked :
    (idle.startup = false ∧ ¬ (idle.findsLow .flood ∧ idle.qch.flood.lowRaised = false))
      ∧ (let s := { scanning .flood with
          qch := { QchState.reset with flood := { CircuitRec.reset with check := .rising } }
          slt := { (scanning .flood).slt with floodStatus := .unconfirmed } };
        s.startup = false ∧ s.qch.flood.check = .rising ∧ s.leastFlow .flood ≤ s.flowFormed .flood
          ∧ s.slt.floodStatus = .unconfirmed)
      ∧ ((flooding .watching).startup = false ∧ (flooding .watching).findsLow .flood
        ∧ (flooding .watching).qch.flood.lowRaised = false)
      ∧ (let s := { scanning .scan with
          pst := { idle.pst with inForce := { idle.config with minFlowA := 900 } }
          qch := { QchState.reset with ringA := { CircuitRec.reset with check := .watching } }
          slt := { (scanning .scan).slt with atQuench := some 0 } };
        s.startup = false ∧ ¬ s.findsLow .flood ∧ s.findsLow .ringA ∧ ¬ s.findsLow .ringB)
      ∧ (let s := { scanning .scan with
          qch := { QchState.reset with ringA := { CircuitRec.reset with check := .rising, riseElapsed := 500 } } };
        s.startup = false ∧ (s.qch.circuit .ringA).check = .rising
          ∧ s.config.flowRiseTime ≤ (s.qch.circuit .ringA).riseElapsed) := by
  simp only [State.findsLow]; decide

/-- A permit that has been lost for 5 ms, in a state. -/
def losing (x : Permit) (s : State) : State :=
  { s with
    pfm := { s.pfm with
      permitStable := permitSet (permitAll 0) 5 x, permitInputs := permitSet (permitAll true) false x } }

/-- A permit lost outside a scan; a motion permit lost in a jog; each permit lost in a scan, the channel RUNNING and the
carriage moving, so that two of them are raised twice; a fallen START input; and edges that are not judged. -/
theorem witness_MonitorFiltersInputs :
    (let s := losing .guardClosed idle;
      s.startup = false ∧ 5 ≤ permitGet s.pfm.permitStable .guardClosed
        ∧ permitGet s.pfm.permitInputs .guardClosed ≠ permitGet s.pfm.permits .guardClosed ∧ s.scanRunning = false
        ∧ s.axc.travel = .stopped ∧ s.cnv.state ≠ .running)
      ∧ (∀ x ∈ [Permit.guardClosed, .estopClear, .driveReady],
        let s := losing x jogging
        5 ≤ permitGet s.pfm.permitStable x ∧ permitGet s.pfm.permitInputs x ≠ permitGet s.pfm.permits x
          ∧ s.scanRunning = false ∧ permitGet s.pfm.permits x = true ∧ s.pfm.motionPermits = true
          ∧ s.axc.travel = .movingTo ∧ s.axc.moveKind = some .jog ∧ s.pfm.counts.length = 19 ∧ s.pfm.firstFault = none)
      ∧ (∀ x ∈ [Permit.coolantFlowOk, .guardClosed, .estopClear, .convReady, .driveReady, .quenchPressureOk],
        let s := losing x { onAxis .scan { AxcState.reset with travel := .tracking } with
          cnv := { CnvState.reset with state := .running, enable := true, convOn := true } }
        5 ≤ permitGet s.pfm.permitStable x ∧ permitGet s.pfm.permitInputs x ≠ permitGet s.pfm.permits x
          ∧ s.scanRunning = true ∧ permitGet s.pfm.permits x = true ∧ s.pfm.counts.length = 19
          ∧ s.cnv.state = .running ∧ s.axc.travel ≠ .stopped ∧ s.pfm.firstFault = none ∧ s.axc.upperOpen = false)
      ∧ (let s := { idle with ord := { OrdState.reset with startStable := 5, startLevel := true } };
        5 ≤ s.ord.startStable ∧ s.ord.startInput = false ∧ s.ord.startLevel = true)
      ∧ ∀ queue ∈ [[], [{ order with lineStart := false }]],
        let s := { ready with ord := { ready.ord with queue := queue } }
        s.startup = false ∧ s.lif.restartPending = false ∧ 5 ≤ s.ord.startStable ∧ s.ord.startInput = true
          ∧ s.ord.startLevel = false ∧ s.ord.queue = queue
          ∧ ({ s with lif := { s.lif with restartPending := true } } : State).lif.restartPending = true := by decide

/-- A selector change to a position, in a state. -/
def turning (p : Selector) (s : State) : State :=
  { s with pfm := { s.pfm with selectorStable := 20, decoded := p } }

/-- Table 11-11: to LOCKED from SETUP in IDLE, the authority of LINE released. -/
theorem test_selector_notice :
    (after .selectorChange (turning .locked { idle with
      lif := { idle.lif with service := listening 0x20 0 } })).lif.service.tx = [⟨0, 0xE5, [0, 1, 0, 1]⟩] := by decide

/-- R92: a slice that leaves quench with HEAT_CUT has its SLICE notice; one that leaves with no flag has none. -/
theorem test_slice_notice :
    ∀ cut ∈ [true, false],
      let s := lastLeaves 1000 .quenchOut
      let s := { s with
        seq := { s.seq with kind := .dry }
        lif := { s.lif with line := listening 0x10 0 }
        slt := if cut then { s.slt with table := s.slt.table.set 4 ((newSlice working 4).flag .heatCut) } else s.slt }
      (after .trackingStep s).lif.line.tx.length = (if cut then 1 else 0) := by decide

/-- At rest; in a jog, to LOCKED and back to SETUP; in a scan, away from its start selector and to it, and away from it with
the rise of QUENCH_OUT forbidden. -/
theorem witness_SelectorChangeIsReported :
    (let s := turning .locked idle;
      20 ≤ s.pfm.selectorStable ∧ s.pfm.decoded ≠ s.pfm.selector ∧ s.scanRunning = false ∧ s.axc.travel = .stopped)
      ∧ (let s := turning .locked jogging;
        20 ≤ s.pfm.selectorStable ∧ s.pfm.decoded ≠ s.pfm.selector ∧ s.scanRunning = false ∧ s.axc.travel = .movingTo
          ∧ s.axc.moveKind = some .jog ∧ s.pfm.decoded ≠ .setup)
      ∧ (let s := turning .setup { jogging with pfm := (inSelector .auto).pfm };
        s.pfm.decoded ≠ s.pfm.selector ∧ s.scanRunning = false ∧ s.axc.moveKind = some .jog ∧ s.pfm.decoded = .setup)
      ∧ (let s := turning .auto (scanning .scan);
        20 ≤ s.pfm.selectorStable ∧ s.pfm.decoded ≠ s.pfm.selector ∧ s.scanRunning = true
          ∧ s.seq.startSelector = some s.pfm.decoded)
      ∧ (let s := turning .locked (scanning .scan);
        20 ≤ s.pfm.selectorStable ∧ s.pfm.decoded ≠ s.pfm.selector ∧ s.scanRunning = true
          ∧ s.seq.startSelector ≠ some s.pfm.decoded ∧ s.axc.upperOpen = false)
      ∧ (let s := turning .locked overtravel;
        20 ≤ s.pfm.selectorStable ∧ s.pfm.decoded ≠ s.pfm.selector ∧ s.scanRunning = true
          ∧ s.seq.startSelector ≠ some s.pfm.decoded ∧ s.riseBlocked ∧ s.pfm.counts.length = 19) := by
  simp only [State.riseBlocked]; decide

/-- A step answers on the idle machine, and the idle machine meets every invariant. -/
theorem witness_StepKeeps_steps : step idle = .next (tick idle) := rfl

theorem witness_StepKeepsSetpointGuarded : SetpointOnlyWhenAllowed idle :=
  ⟨⟨by intro; rfl, fun h => absurd rfl h, rfl⟩, ⟨by decide, by decide, by decide⟩, rfl, fun h => absurd rfl h⟩

theorem witness_StepKeepsPowerBounded : PowerBounded idle :=
  ⟨⟨by intro; rfl, fun h => absurd rfl h, rfl⟩, by intro; rfl, by decide⟩

theorem witness_StepKeepsValvesGated : ValvesGated idle :=
  ⟨by intro; rfl, fun c => by cases c <;> exact ⟨by decide, by decide⟩⟩

theorem witness_StepKeepsLinkSound : LinkBounded idle ∧ LockedUnheld idle :=
  ⟨fun p => by cases p <;> exact ⟨by decide, by decide, by decide⟩, by decide, by decide⟩

theorem witness_no_slot_writing : ∀ n < 33, (idle.pst.slot n).state ≠ .writing := by decide

theorem witness_StepKeepsOrdersAndStoreSound :
    QueueSound queued ∧ PatchesDistinct idle ∧ WritingMatchesChannel idle := by
  refine ⟨⟨by decide, by decide, by decide⟩, ⟨by decide, fun i j p q h => ?_⟩, by decide,
    (fun h => nomatch h), fun _ n _ h => ?_, (fun n h => nomatch h)⟩
  · rcases i with _ | _ | _ | _ | i <;> simp [idle, State.reset, OrdState.reset] at h
  · simpa [idle, PstState.reset] using witness_no_slot_writing n (by omega)

theorem witness_StepKeepsIndicatorsTrue : ResultLampsExclusive idle ∧ LampsFollow idle :=
  ⟨⟨by decide, by decide⟩, fun _ => ⟨by decide, by decide⟩⟩

theorem witness_StepKeepsSequenceSound : AbortRecordSound (scanning .runout) ∧ SequenceItemsSound (scanning .runout) :=
  ⟨⟨by decide, by decide⟩, by decide, by decide, by decide⟩

end Sys2Proof.Tests
end

section
/-! What one event can do to the order queue, the patch slots and the profile slots (O58). -/

namespace Sys2Proof.Machine

/-! ### The part of the state that queue, patch slots and WRITING slots are judged by -/

/-- What the invariants of R8, R16, R162 and R170 read of a state. -/
structure Holdings where
  startup : Bool
  slots : List Slot
  channel : Option WriteJob
  queue : List Order
  patches : List (Option Patch)

def State.holdings (s : State) : Holdings := ⟨s.startup, s.pst.slots, s.pst.channel, s.ord.queue, s.ord.patches⟩

/-- One change of the holdings, each under the conditions its rule gives. -/
inductive Holdings.Event : Holdings → Holdings → Prop
  | enqueue {h : Holdings} (o : Order) : h.queue.length < 4 → (∀ q ∈ h.queue, q.tag ≠ o.tag) → 1 ≤ o.tag →
      Event h { h with queue := h.queue ++ [o] }
  | dequeue {h : Holdings} {q : List Order} : q.Sublist h.queue → Event h { h with queue := q }
  | loadPatch {h : Holdings} {n : Nat} {q : Patch} : 1 ≤ n → n ≤ 4 → patchConflicts h.patches n q = false →
      Event h { h with patches := h.patches.set (n - 1) (some q) }
  | clearPatch {h : Holdings} (n : Nat) : Event h { h with patches := h.patches.set (n - 1) none }
  | clearPatches {h : Holdings} : Event h { h with patches := List.replicate 4 none }
  | beginSlot {h : Holdings} {n : Nat} {v : Slot} {job : WriteJob} : h.startup = false → h.channel = none →
      1 ≤ n → n ≤ 32 → job.slot = some n → v.state = .writing →
      Event h { h with slots := h.slots.set (n - 1) v, channel := some job }
  | beginConfig {h : Holdings} (c : ConfigRecord) : h.startup = false → h.channel = none →
      Event h { h with channel := some (.config c) }
  | endSlot {h : Holdings} {n : Nat} {v : Slot} {job : WriteJob} : h.channel = some job → job.slot = some n →
      v.state ≠ .writing → Event h { h with slots := h.slots.set (n - 1) v, channel := none }
  | endConfig {h : Holdings} {c : ConfigRecord} : h.channel = some (.config c) → Event h { h with channel := none }
  | reset {h : Holdings} : Event h ⟨true, h.slots, none, [], List.replicate 4 none⟩
  | startup {h : Holdings} : h.startup = true →
      Event h { h with startup := false, slots := h.slots.map Slot.startupCheck }

/-- What judging one request, or one event of another row, does to the holdings: nothing, or one event. -/
inductive Holdings.Step (h : Holdings) : Holdings → Prop
  | refl : Step h h
  | single {g : Holdings} : h.Event g → Step h g

/-- The events of one command, which may serve several requests. -/
inductive Holdings.Steps (h : Holdings) : Holdings → Prop
  | refl : Steps h h
  | tail {g k : Holdings} : Steps h g → g.Event k → Steps h k

theorem Holdings.Steps.single {h g : Holdings} (e : h.Event g) : h.Steps g := .tail .refl e

theorem Holdings.Steps.trans {h g k : Holdings} (hg : h.Steps g) (gk : g.Steps k) : h.Steps k := by
  induction gk with
  | refl => exact hg
  | tail _ event ih => exact .tail ih event

theorem Holdings.Step.steps {h g : Holdings} (e : h.Step g) : h.Steps g := by
  cases e with
  | refl => exact .refl
  | single event => exact .single event

theorem Holdings.Step.of_eq {h g : Holdings} (e : g = h) : h.Step g := e ▸ .refl

theorem Holdings.Steps.of_eq {h g : Holdings} (e : g = h) : h.Steps g := e ▸ .refl

/-! ### What leaves the holdings -/

theorem holdings_setPending (cs : List Instr) (s : State) : (s.setPending cs).holdings = s.holdings := rfl

/-- A reaction of the scan leaves queue, patch slots and store. -/
theorem Reacts.holdings {s t : State} (h : Reacts s t) : t.holdings = s.holdings := by
  have hqueue : t.ord.queue = s.ord.queue := by rw [h.ord]
  have hpatches : t.ord.patches = s.ord.patches := by rw [h.ord]
  simp only [State.holdings, h.startup, h.pst, hqueue, hpatches]

theorem holdings_tick (s : State) : (tick s).holdings = s.holdings := rfl

/-! ### A START -/

/-- Binding takes the head order off the queue (R169). -/
theorem holdings_bindStart (o : Order) (w : Working) (s : State) :
    (bindStart o w s).1.holdings = { s.holdings with queue := s.ord.queue.drop 1 } := by
  unfold bindStart
  dsimp only
  exact Reacts.holdings (.announce _ _ (.reformQuench (.onAxc _ (.onQch _ (.onSpg _ (.onSlt _ (.refl _)))))))

/-- A START taken drops the head order and nothing else of the holdings (R169). -/
theorem holdings_takeStart (o : Order) (w : Working) (s : State) :
    (takeStart o w s).holdings = { s.holdings with queue := s.ord.queue.drop 1 } := by
  rw [← holdings_bindStart o w s]
  unfold takeStart orderNotice
  exact Reacts.holdings (.notice _ _ (.raiseAll _ (.onAxc _ (.refl _))))

/-- A stale head order removed (R167). -/
theorem holdings_removeStale (o : Order) (s : State) :
    (removeStale o s).holdings = { s.holdings with queue := s.ord.queue.drop 1 } := rfl

theorem dropHead_event (s : State) : s.holdings.Event { s.holdings with queue := s.ord.queue.drop 1 } :=
  .dequeue (List.drop_sublist 1 s.ord.queue)

theorem takeStart_step (o : Order) (w : Working) (s : State) : s.holdings.Step (takeStart o w s).holdings := by
  rw [holdings_takeStart]; exact .single (dropHead_event s)

theorem removeStale_step (o : Order) (s : State) : s.holdings.Step (removeStale o s).holdings := by
  rw [holdings_removeStale]; exact .single (dropHead_event s)

/-- A START edge takes, removes or leaves the head order (R165). -/
theorem startEdge_step (s : State) : s.holdings.Step (startEdge s).holdings := by
  unfold startEdge
  split
  · exact .refl
  · split
    · exact .refl
    · split
      · unfold startByEdge
        split
        · exact takeStart_step _ _ s
        · exact .refl
        · exact removeStale_step _ s
        · exact .refl
      · exact .refl

/-! ### Requests -/

theorem inRange_iff {lo hi n : Nat} : inRange lo hi n = true ↔ lo ≤ n ∧ n ≤ hi := by
  simp [inRange]

theorem controlled_step {s : State} (k : RequestKind) (p : Port) (bs : List Byte) {v : Served}
    (h : s.holdings.Step v.state.holdings) : s.holdings.Step (controlled k p bs s v).state.holdings := by
  unfold controlled
  split
  · exact .refl
  · split
    · exact .refl
    · exact h

theorem uncontrolled_step {s : State} (k : RequestKind) (bs : List Byte) {v : Served}
    (h : s.holdings.Step v.state.holdings) : s.holdings.Step (uncontrolled k bs s v).state.holdings := by
  unfold uncontrolled
  split
  · exact .refl
  · exact h

/-- ENQUEUE_ORDER appends an order of a new tag while there is room (R163). -/
theorem serveEnqueueOrder_step (p : Port) (bs : List Byte) (s : State) :
    s.holdings.Step (serveEnqueueOrder p bs s).state.holdings := by
  refine controlled_step _ _ _ ?_
  dsimp only
  split
  · exact .refl
  · next hfields =>
    split
    · exact .refl
    · next hroom =>
      split
      · exact .refl
      · next htag =>
        split
        · exact .refl
        · split
          · exact .refl
          · refine .single (.enqueue (h := s.holdings) _ (Nat.lt_of_not_le hroom) (fun q hq e => htag ?_) ?_)
            · exact List.any_eq_true.mpr ⟨q, hq, beq_iff_eq.mpr e⟩
            · simp only [orderFieldsOk, Bool.not_eq_true, Bool.not_eq_false', Bool.and_eq_true, inRange_iff] at hfields
              obtain ⟨⟨⟨hlow, -⟩, -⟩, -⟩ := hfields
              exact hlow

/-- CANCEL_ORDER keeps the other orders in their order (R164). -/
theorem serveCancelOrder_step (p : Port) (bs : List Byte) (s : State) :
    s.holdings.Step (serveCancelOrder p bs s).state.holdings := by
  refine controlled_step _ _ _ ?_
  split
  · exact .single (.dequeue List.filter_sublist)
  · exact .refl

/-- START_SCAN takes, removes or leaves the head order (R165 to R169). -/
theorem serveStartScan_step (p : Port) (bs : List Byte) (s : State) :
    s.holdings.Step (serveStartScan p bs s).state.holdings := by
  refine controlled_step _ _ _ ?_
  split
  · exact takeStart_step _ _ s
  · exact .refl
  · exact removeStale_step _ s
  · exact .refl

/-- LOAD_PATCH fills a patch slot that no other one conflicts with (R170). -/
theorem serveLoadPatch_step (p : Port) (bs : List Byte) (s : State) :
    s.holdings.Step (serveLoadPatch p bs s).state.holdings := by
  refine controlled_step _ _ _ ?_
  dsimp only
  split
  · exact .refl
  · next hrange =>
    simp only [Bool.not_eq_true, Bool.not_eq_false', Bool.and_eq_true, inRange_iff] at hrange
    obtain ⟨⟨hlow, hhigh⟩, -⟩ := hrange
    split
    · exact .refl
    · split
      · exact .refl
      · split
        · exact .refl
        · split
          · exact .refl
          · next hfree => exact .single (.loadPatch hlow hhigh (eq_false_of_ne_true hfree))

/-- CLEAR_PATCH empties one patch slot or all of them (R171). -/
theorem serveClearPatch_step (p : Port) (bs : List Byte) (s : State) :
    s.holdings.Step (serveClearPatch p bs s).state.holdings := by
  refine controlled_step _ _ _ ?_
  dsimp only
  split
  · exact .refl
  · split
    · exact .refl
    · by_cases hall : field bs 0 1 = 0
      · simp only [hall, if_true]; exact .single .clearPatches
      · simp only [hall, if_false]; exact .single (.clearPatch _)

/-- COMMIT_PROFILE begins a write of its slot on an idle channel (R8, R11). -/
theorem serveCommitProfile_step (p : Port) (bs : List Byte) {s : State} (hs : s.startup = false) :
    s.holdings.Step (serveCommitProfile p bs s).state.holdings := by
  refine controlled_step _ _ _ ?_
  dsimp only
  split
  · exact .refl
  · split
    · exact .refl
    · next hrange =>
      obtain ⟨hlow, hhigh⟩ := inRange_iff.mp (by simpa using hrange)
      split
      · exact .refl
      · split
        · exact .refl
        · split
          · exact .refl
          · next hidle =>
            split
            · exact .refl
            · split
              · exact .refl
              · exact .single (.beginSlot hs (Option.not_isSome_iff_eq_none.mp hidle) hlow hhigh rfl rfl)

/-- ERASE_PROFILE begins a write of its slot on an idle channel (R8, R13). -/
theorem serveEraseProfile_step (p : Port) (bs : List Byte) {s : State} (hs : s.startup = false) :
    s.holdings.Step (serveEraseProfile p bs s).state.holdings := by
  refine controlled_step _ _ _ ?_
  dsimp only
  split
  · exact .refl
  · split
    · exact .refl
    · next hrange =>
      obtain ⟨hlow, hhigh⟩ := inRange_iff.mp (by simpa using hrange)
      split
      · exact .refl
      · next hidle =>
        split
        · exact .refl
        · split
          · exact .refl
          · exact .single (.beginSlot hs (Option.not_isSome_iff_eq_none.mp hidle) hlow hhigh rfl rfl)

/-- WRITE_CONFIG begins a write of the record on an idle channel (R18). -/
theorem serveWriteConfig_step (p : Port) (bs : List Byte) {s : State} (hs : s.startup = false) :
    s.holdings.Step (serveWriteConfig p bs s).state.holdings := by
  unfold serveWriteConfig
  dsimp only
  split
  · exact .refl
  · split
    · exact .refl
    · split
      · exact .refl
      · split
        · exact .refl
        · split
          · exact .refl
          · next hidle =>
            split
            · exact .refl
            · exact .single (.beginConfig _ hs (Option.not_isSome_iff_eq_none.mp hidle))

/-- PROFILE_VERTICES writes the staging buffer alone (R10). -/
theorem serveProfileVertices_holdings (p : Port) (bs : List Byte) (s : State) :
    (serveProfileVertices p bs s).state.holdings = s.holdings := by
  unfold serveProfileVertices
  dsimp only
  repeat' split
  all_goals rfl

/-- READ_PROFILE changes nothing (R15). -/
theorem serveReadProfile_state (bs : List Byte) (s : State) : (serveReadProfile bs s).state = s := by
  have part : ∀ r n q part, (servePart r n q part s).state = s := by
    intro r n q part
    unfold servePart
    repeat' split
    all_goals rfl
  unfold serveReadProfile uncontrolled
  split
  · rfl
  · split
    · unfold serveReadStaging
      split
      · rfl
      · exact part ..
    · split
      · unfold serveReadWorking
        split
        · rfl
        · exact part ..
      · split
        · unfold serveReadSlot
          split
          · rfl
          · rfl
          · rfl
          · exact part ..
        · rfl

/-- READ_SLICES changes nothing (R93). -/
theorem serveReadSlices_state (bs : List Byte) (s : State) : (serveReadSlices bs s).state = s := by
  unfold serveReadSlices uncontrolled
  repeat' split
  all_goals rfl

/-- SET_NOTICES changes LIF alone (R180). -/
theorem serveSetNotices_holdings (p : Port) (bs : List Byte) (s : State) :
    (serveSetNotices p bs s).state.holdings = s.holdings := by
  unfold serveSetNotices uncontrolled
  repeat' split
  all_goals rfl

/-- TAKE_CONTROL changes LIF alone (R181). -/
theorem serveTakeControl_holdings (p : Port) (bs : List Byte) (s : State) :
    (serveTakeControl p bs s).state.holdings = s.holdings := by
  unfold serveTakeControl
  repeat' split
  all_goals rfl

/-- RELEASE_CONTROL changes LIF alone (R182). -/
theorem serveReleaseControl_holdings (p : Port) (bs : List Byte) (s : State) :
    (serveReleaseControl p bs s).state.holdings = s.holdings := by
  unfold serveReleaseControl
  repeat' split
  all_goals rfl

/-- JOG is a reaction of the axis (R118). -/
theorem serveJog_holdings (p : Port) (bs : List Byte) (s : State) :
    (serveJog p bs s).state.holdings = s.holdings := by
  unfold serveJog
  repeat' split
  all_goals first | rfl | exact (Reacts.beginJog _ (.refl s)).holdings

/-- A request judged by its owner changes the holdings by at most one event. -/
theorem serve_step (k : RequestKind) (p : Port) (bs : List Byte) {s : State} (hs : s.startup = false) :
    s.holdings.Step (serve k p bs s).state.holdings := by
  cases k
  case readProfile => exact .of_eq (congrArg State.holdings (serveReadProfile_state bs s))
  case readSlices => exact .of_eq (congrArg State.holdings (serveReadSlices_state bs s))
  case setNotices => exact .of_eq (serveSetNotices_holdings p bs s)
  case takeControl => exact .of_eq (serveTakeControl_holdings p bs s)
  case releaseControl => exact .of_eq (serveReleaseControl_holdings p bs s)
  case enqueueOrder => exact serveEnqueueOrder_step p bs s
  case cancelOrder => exact serveCancelOrder_step p bs s
  case startScan => exact serveStartScan_step p bs s
  case acknowledge =>
    refine controlled_step _ _ _ ?_
    split
    · exact .refl
    · split
      · exact .of_eq (Reacts.acknowledged (.refl s)).holdings
      · exact .refl
  case clearFaults =>
    refine controlled_step _ _ _ ?_
    split <;> exact .refl
  case trimAdjust =>
    refine controlled_step _ _ _ ?_
    split <;> exact .refl
  case loadPatch => exact serveLoadPatch_step p bs s
  case clearPatch => exact serveClearPatch_step p bs s
  case beginProfile => exact controlled_step _ _ _ .refl
  case profileVertices => exact .of_eq (serveProfileVertices_holdings p bs s)
  case commitProfile => exact serveCommitProfile_step p bs hs
  case eraseProfile => exact serveEraseProfile_step p bs hs
  case writeConfig => exact serveWriteConfig_step p bs hs
  case jog => exact .of_eq (serveJog_holdings p bs s)
  case restart =>
    refine controlled_step _ _ _ ?_
    split
    · exact .refl
    · split <;> exact .refl
  case abortScan => exact uncontrolled_step _ _ (.of_eq (Reacts.judge _ (.refl s)).holdings)
  all_goals exact uncontrolled_step _ _ .refl

/-- As `serve_step`, with the answers of start-up, restart and unknown kinds. -/
theorem judgeRequest_step (p : Port) (f : Frame) (s : State) :
    s.holdings.Step (judgeRequest p f s).state.holdings := by
  unfold judgeRequest
  split
  · exact .refl
  · next hready =>
    split
    · exact .refl
    · exact serve_step _ p _ (by simp only [Bool.or_eq_true, not_or, Bool.not_eq_true] at hready; exact hready.1)

/-! ### The link -/

/-- Serving a port's buffer is the events of its requests in turn (R176). -/
theorem drainPort_steps (p : Port) (n : Nat) (s : State) : s.holdings.Steps (drainPort p n s).holdings := by
  induction n generalizing s with
  | zero => exact .refl
  | succ n ih =>
    unfold drainPort
    split
    · exact (judgeRequest_step p _ (s.onLif _)).steps.trans (ih (takeRequest p _ (s.onLif _)))
    · exact .refl

theorem deliverFrame_steps (p : Port) (f : Frame) (s : State) : s.holdings.Steps (deliverFrame p f s).holdings := by
  unfold deliverFrame
  split
  · exact drainPort_steps p _ (s.onLif _)
  · exact .refl

/-! ### Resets, start-up, completions -/

theorem resetWith_event (cause : ResetCause) (s : State) : s.holdings.Event (resetWith cause s).holdings := .reset

theorem holdings_takeDefaulted (s : State) : (takeDefaulted s).holdings = s.holdings := by
  unfold takeDefaulted
  split
  · rfl
  · exact (Reacts.pfmTake _ (.refl s)).holdings

theorem PstState.startup_slots (q : PstState) : q.startup.slots = q.slots.map Slot.startupCheck := by
  unfold PstState.startup PstState.loadConfig
  split <;> rfl

theorem PstState.startup_channel (q : PstState) : q.startup.channel = q.channel := by
  unfold PstState.startup PstState.loadConfig
  split <;> rfl

/-- The end of the start-up phase checks every slot and leaves the channel, the queue and the patch slots (R16,
R183). -/
theorem holdings_endStartup (f : FirstLevels) (s : State) : (endStartup f s).holdings =
    { s.holdings with startup := false, slots := s.holdings.slots.map Slot.startupCheck } := by
  unfold endStartup
  rw [holdings_takeDefaulted]
  simp [State.holdings, PstState.startup_slots, PstState.startup_channel, OrdState.startup]

theorem execStartupEnd_steps {f : FirstLevels} {s t : State} (h : execStartupEnd f s = .next t) :
    s.holdings.Steps t.holdings := by
  have ended : ∀ g v, v.holdings = s.holdings → s.startup = true → s.holdings.Steps (endStartup g v).holdings := by
    intro g v hv hs
    rw [holdings_endStartup, hv]
    exact .single (.startup hs)
  unfold execStartupEnd withEncoder at h
  split at h
  · next hs =>
    split at h <;> cases h
    · exact ended _ _ rfl hs
    · exact ended _ _ rfl hs
  · cases h; exact .refl

theorem holdings_storeWriteFault (i : CircuitItem) (s : State) : (storeWriteFault i s).holdings = s.holdings :=
  (Reacts.pfmTake _ (.refl s)).holdings

/-- A slot write's completion puts the slot and frees the channel (R12, R13). -/
theorem holdings_completeSlot (n : Nat) (verified : Bool) (v : Slot) (s : State) :
    (completeSlot n verified v s).holdings =
      { s.holdings with slots := s.pst.slots.set (n - 1) v, channel := none } := by
  cases verified
  · exact holdings_storeWriteFault _ _
  · rfl

theorem execCommitComplete_steps {b : Bool} {s t : State} (h : execCommitComplete b s = .next t) :
    s.holdings.Steps t.holdings := by
  unfold execCommitComplete at h
  split at h <;> cases h
  · next n copy hc =>
    rw [holdings_completeSlot]
    refine .single (.endSlot (h := s.holdings) hc rfl ?_)
    cases b <;> simp [Slot.written, Slot.failed]
  all_goals exact .refl

theorem execEraseComplete_steps {b : Bool} {s t : State} (h : execEraseComplete b s = .next t) :
    s.holdings.Steps t.holdings := by
  unfold execEraseComplete at h
  split at h <;> cases h
  · next n hc =>
    rw [holdings_completeSlot]
    refine .single (.endSlot (h := s.holdings) hc rfl ?_)
    cases b <;> simp [Slot.written, Slot.failed]
  all_goals exact .refl

/-- A record write's completion frees the channel (R18). -/
theorem holdings_configDone (verified : Bool) (c : ConfigRecord) (n : Nat) (s : State) :
    (configNotice verified
      (if verified then s.onPst fun q => q.configWritten c
        else storeWriteFault .configRecord (s.onPst fun q => q.configFailed n).bumpFree)).holdings =
      { s.holdings with channel := none } := by
  cases verified
  · exact holdings_storeWriteFault _ _
  · rfl

theorem execConfigWriteComplete_steps {b : Bool} {s t : State} (h : execConfigWriteComplete b s = .next t) :
    s.holdings.Steps t.holdings := by
  unfold execConfigWriteComplete at h
  split at h <;> cases h
  · next c hc =>
    rw [holdings_configDone]
    exact .single (.endConfig (h := s.holdings) hc)
  all_goals exact .refl

/-! ### The monitor -/

theorem holdings_permitChange (x : Permit) (s : State) : (permitChange x s).holdings = s.holdings :=
  (Reacts.raiseAll _ (.stopAtLoss _ (.reportPermit _ (.refl _)))).holdings

theorem holdings_selectorChange (s : State) : (selectorChange s).holdings = s.holdings := by
  have lif : ∀ v : State, (reportSelectorLif v).holdings = v.holdings := by
    intro v; unfold reportSelectorLif; split <;> rfl
  unfold selectorChange selectorNotice
  dsimp only
  rw [(Reacts.notice _ _ (.reportSelectorAxc (.refl _))).holdings, lif, (Reacts.reportSelectorSeq (.refl _)).holdings]
  rfl

/-! ### Every command -/

theorem exec_steps {c : Instr} {s t : State} (h : exec c s = .next t) : s.holdings.Steps t.holdings := by
  by_cases hc : Reaction c
  · exact .of_eq (exec_reaction hc h).holdings
  cases c <;> try exact absurd trivial hc
  case powerOn => cases h; exact .single (resetWith_event _ s)
  case resetPin => cases h; exact .single (resetWith_event _ s)
  case startupEnd => exact execStartupEnd_steps h
  case receiveByte p b =>
    simp only [exec, execReceiveByte] at h
    split at h <;> cases h
    · exact .refl
    · exact deliverFrame_steps p _ (s.onLif _)
  case receivePause p =>
    simp only [exec, execReceivePause] at h
    split at h <;> cases h <;> exact .refl
  case frameSent p =>
    simp only [exec, execFrameSent] at h
    split at h
    · cases h; exact .refl
    · split at h <;> cases h
      · exact .single (resetWith_event _ s)
      · exact drainPort_steps p _ (s.onLif _)
  case commitComplete => exact execCommitComplete_steps h
  case eraseComplete => exact execEraseComplete_steps h
  case configWriteComplete => exact execConfigWriteComplete_steps h
  case monitorUpdate =>
    simp only [exec, execMonitorUpdate] at h
    split at h <;> cases h <;> exact .refl
  case permitChange x =>
    simp only [exec, execPermitChange] at h
    split at h <;> cases h
    · exact .of_eq (holdings_permitChange x s)
    · exact .refl
  case selectorChange =>
    simp only [exec, execSelectorChange] at h
    split at h <;> cases h
    · exact .of_eq (holdings_selectorChange s)
    · exact .refl
  case startEdge =>
    simp only [exec, execStartEdge] at h
    split at h <;> cases h
    · exact (startEdge_step (s.onOrd fun d => { d with startLevel := true, startStable := 0 })).steps
    · exact .refl
  case startInputFall =>
    simp only [exec, execStartInputFall] at h
    split at h <;> cases h <;> exact .refl
  all_goals cases h; exact deliverFrame_steps _ _ s

/-- A step changes the holdings by events alone. -/
theorem step_steps {s t : State} (h : step s = .next t) : s.holdings.Steps t.holdings := by
  unfold step at h
  split at h
  · cases h; exact .of_eq (holdings_tick s)
  · next c rest _ => rw [← holdings_setPending rest s]; exact exec_steps h

/-! ### What every event keeps -/

/-- What every event keeps, the events of a step keep. -/
theorem Holdings.Steps.keeps {P : Holdings → Prop} (hP : ∀ {h g : Holdings}, h.Event g → P h → P g) {h g : Holdings}
    (steps : h.Steps g) (hh : P h) : P g := by
  induction steps with
  | refl => exact hh
  | tail _ event ih => exact hP event ih

def Holdings.QueueSound (h : Holdings) : Prop :=
  h.queue.length ≤ 4 ∧ (h.queue.map Order.tag).Nodup ∧ ∀ o ∈ h.queue, 1 ≤ o.tag

def Holdings.PatchesDistinct (h : Holdings) : Prop :=
  h.patches.length = 4 ∧ ∀ (i j : Nat) (p q : Patch), h.patches[i]? = some (some p) → h.patches[j]? = some (some q) →
    p.profile = q.profile → p.vertex = q.vertex → i = j

/-- Slot n, 1 to 32 (R7). -/
def Holdings.slot (h : Holdings) (n : Nat) : Slot := h.slots.getD (n - 1) Slot.factory

def Holdings.WritingMatchesChannel (h : Holdings) : Prop :=
  h.slots.length = 32 ∧ (h.startup = true → h.channel = none)
    ∧ (h.startup = false → ∀ n, 1 ≤ n → n ≤ 32 →
      ((h.slot n).state = .writing ↔ h.channel.bind WriteJob.slot = some n))
    ∧ ∀ n, h.channel.bind WriteJob.slot = some n → 1 ≤ n ∧ n ≤ 32

theorem queueSound_iff (s : State) : QueueSound s ↔ s.holdings.QueueSound := .rfl

theorem patchesDistinct_iff (s : State) : PatchesDistinct s ↔ s.holdings.PatchesDistinct := .rfl

theorem writingMatchesChannel_iff (s : State) : WritingMatchesChannel s ↔ s.holdings.WritingMatchesChannel := .rfl

theorem Holdings.QueueSound.sublist {h : Holdings} (hq : h.QueueSound) {q : List Order} (sub : q.Sublist h.queue) :
    Holdings.QueueSound { h with queue := q } := by
  obtain ⟨hlen, hnodup, htag⟩ := hq
  exact ⟨Nat.le_trans sub.length_le hlen, (sub.map Order.tag).nodup hnodup, fun o ho => htag o (sub.subset ho)⟩

theorem Holdings.Event.keeps_queueSound {h g : Holdings} (e : h.Event g) (hq : h.QueueSound) : g.QueueSound := by
  cases e with
  | enqueue o hroom hnew htag =>
    obtain ⟨-, hnodup, htags⟩ := hq
    refine ⟨?_, ?_, fun q hm => ?_⟩
    · rw [List.length_append, List.length_singleton]; omega
    · rw [List.map_append, List.nodup_append]
      refine ⟨hnodup, List.pairwise_singleton _ _, fun a ha b hb e => ?_⟩
      obtain ⟨q, hm, rfl⟩ := List.mem_map.mp ha
      rw [List.map_singleton, List.mem_singleton] at hb
      exact hnew q hm (e.trans hb)
    · rcases List.mem_append.mp hm with hm | hm
      · exact htags q hm
      · rw [List.mem_singleton.mp hm]; exact htag
  | dequeue sub => exact hq.sublist sub
  | reset => exact ⟨by simp, by simp, by simp⟩
  | _ => exact hq

/-- Replacing a patch slot by none keeps the enabled ones distinct. -/
theorem Holdings.PatchesDistinct.clear {h : Holdings} (hp : h.PatchesDistinct) (k : Nat) :
    Holdings.PatchesDistinct { h with patches := h.patches.set k none } := by
  obtain ⟨hlen, hdist⟩ := hp
  have kept : ∀ {i : Nat} {p : Patch}, (h.patches.set k none)[i]? = some (some p) → h.patches[i]? = some (some p) := by
    intro i p hi
    rw [List.getElem?_set] at hi
    split at hi
    · split at hi <;> simp at hi
    · exact hi
  exact ⟨by simpa using hlen, fun i j p q hi hj => hdist i j p q (kept hi) (kept hj)⟩

/-- A patch that conflicts with no other slot names another vertex than every other enabled slot (R170). -/
theorem patchConflicts_false {patches : List (Option Patch)} {n k : Nat} {q r : Patch}
    (h : patchConflicts patches n q = false) (hk : patches[k]? = some (some r)) (hn : k + 1 ≠ n)
    (hprofile : r.profile = q.profile) : r.vertex ≠ q.vertex := by
  intro hvertex
  have hlt : k < patches.length := (List.getElem?_eq_some_iff.mp hk).1
  have hconf : patchConflicts patches n q = true :=
    List.any_eq_true.mpr ⟨k, List.mem_range.mpr hlt, by simp [List.getD_eq_getElem?_getD, hk, hn, hprofile, hvertex]⟩
  rw [h] at hconf
  cases hconf

theorem Holdings.PatchesDistinct.load {h : Holdings} (hp : h.PatchesDistinct) {n : Nat} {q : Patch} (hn : 1 ≤ n)
    (hfree : patchConflicts h.patches n q = false) :
    Holdings.PatchesDistinct { h with patches := h.patches.set (n - 1) (some q) } := by
  obtain ⟨hlen, hdist⟩ := hp
  have cases_at : ∀ {i : Nat} {p : Patch}, (h.patches.set (n - 1) (some q))[i]? = some (some p) →
      (i = n - 1 ∧ p = q) ∨ (i ≠ n - 1 ∧ h.patches[i]? = some (some p)) := by
    intro i p hi
    rw [List.getElem?_set] at hi
    split at hi
    · next e =>
      split at hi
      · exact .inl ⟨e.symm, by simpa using hi.symm⟩
      · cases hi
    · next e => exact .inr ⟨Ne.symm e, hi⟩
  refine ⟨by simpa using hlen, fun i j p r hi hj hprofile hvertex => ?_⟩
  rcases cases_at hi with ⟨ei, rfl⟩ | ⟨hni, hi'⟩ <;> rcases cases_at hj with ⟨ej, rfl⟩ | ⟨hnj, hj'⟩
  · rw [ei, ej]
  · exact absurd hvertex.symm (patchConflicts_false (k := j) hfree hj' (by omega) hprofile.symm)
  · exact absurd hvertex (patchConflicts_false (k := i) hfree hi' (by omega) hprofile)
  · exact hdist i j p r hi' hj' hprofile hvertex

theorem patchesDistinct_replicate (h : Holdings) :
    Holdings.PatchesDistinct { h with patches := List.replicate 4 none } := by
  refine ⟨rfl, fun i j p q hi => ?_⟩
  cases List.eq_of_mem_replicate (List.mem_of_getElem? hi)

theorem Holdings.Event.keeps_patchesDistinct {h g : Holdings} (e : h.Event g) (hp : h.PatchesDistinct) :
    g.PatchesDistinct := by
  cases e with
  | loadPatch hlow _ hfree => exact hp.load hlow hfree
  | clearPatch n => exact hp.clear _
  | clearPatches => exact patchesDistinct_replicate h
  | reset => exact patchesDistinct_replicate h
  | _ => exact hp

/-- Slot m after slot n is replaced. -/
theorem getD_set_slot {slots : List Slot} (hlen : slots.length = 32) {n m : Nat} (hn : 1 ≤ n) (hn' : n ≤ 32)
    (hm : 1 ≤ m) (v : Slot) : (slots.set (n - 1) v).getD (m - 1) Slot.factory =
      if m = n then v else slots.getD (m - 1) Slot.factory := by
  rw [List.getD_eq_getElem?_getD, List.getD_eq_getElem?_getD, List.getElem?_set]
  by_cases e : m = n
  · rw [if_pos (by omega), if_pos (by omega), if_pos e]; rfl
  · rw [if_neg (by omega), if_neg e]

theorem Slot.startupCheck_not_writing (v : Slot) : v.startupCheck.state ≠ .writing := by
  unfold Slot.startupCheck
  split
  · simp [Slot.spoil]
  · next h => exact fun e => h (.inl e)

theorem Holdings.Event.keeps_writingMatchesChannel {h g : Holdings} (e : h.Event g) (hw : h.WritingMatchesChannel) :
    g.WritingMatchesChannel := by
  obtain ⟨hlen, hidle, hwriting, hrange⟩ := hw
  cases e with
  | @beginSlot n v job hs hc hlow hhigh hjob hv =>
    refine ⟨by simpa using hlen, fun hs' => absurd hs' (by simp [hs]), fun _ m hm hm' => ?_, ?_⟩
    · have hm₀ := hwriting hs m hm hm'
      simp only [Holdings.slot, getD_set_slot hlen hlow hhigh hm, Option.bind_some, hjob] at hm₀ ⊢
      by_cases e : m = n
      · simp [e, hv]
      · simpa [e, Ne.symm e, hc] using hm₀
    · intro m hm
      simp only [Option.bind_some, hjob, Option.some.injEq] at hm
      exact hm ▸ ⟨hlow, hhigh⟩
  | beginConfig c hs hc =>
    refine ⟨hlen, fun hs' => absurd hs' (by simp [hs]), fun _ m hm hm' => ?_, fun n hn => by simp [WriteJob.slot] at hn⟩
    simpa [Holdings.slot, WriteJob.slot, hc] using hwriting hs m hm hm'
  | @endSlot n v job hc hjob hv =>
    have hn : h.channel.bind WriteJob.slot = some n := by rw [hc]; exact hjob
    obtain ⟨hlow, hhigh⟩ := hrange n hn
    refine ⟨by simpa using hlen, fun _ => rfl, fun hs m hm hm' => ?_, fun _ hm => by simp at hm⟩
    have hm₀ := hwriting hs m hm hm'
    simp only [Holdings.slot, getD_set_slot hlen hlow hhigh hm, hn] at hm₀ ⊢
    by_cases e : m = n
    · simp [e, hv]
    · simpa [e, Ne.symm e] using hm₀
  | @endConfig c hc =>
    refine ⟨hlen, fun _ => rfl, fun hs m hm hm' => ?_, fun _ hm => by simp at hm⟩
    simpa [Holdings.slot, WriteJob.slot, hc] using hwriting hs m hm hm'
  | reset => exact ⟨hlen, fun _ => rfl, fun hs => (by cases hs), fun _ hm => by simp at hm⟩
  | startup hs =>
    have hc := hidle hs
    refine ⟨by simpa using hlen, fun _ => hc, fun _ m hm hm' => ?_, hrange⟩
    have hlt : m - 1 < h.slots.length := by omega
    simp [Holdings.slot, hc, List.getD_eq_getElem?_getD, hlt, Slot.startupCheck_not_writing]
  | _ => exact ⟨hlen, hidle, hwriting, hrange⟩

/-- Settles O58: a step is events of the holdings, and every event keeps the three invariants. -/
theorem stepKeepsOrdersAndStoreSound : Obligations.StepKeepsOrdersAndStoreSound := by
  intro s t h
  have steps := step_steps h
  simp only [queueSound_iff, patchesDistinct_iff, writingMatchesChannel_iff]
  exact ⟨steps.keeps Holdings.Event.keeps_queueSound, steps.keeps Holdings.Event.keeps_patchesDistinct,
    steps.keeps Holdings.Event.keeps_writingMatchesChannel⟩

end Sys2Proof.Machine
end

section
/-! Requests refused before their own rule, and the store's requests (O11, O26, O27). -/

namespace Sys2Proof.Machine

/-! ### A request judged by its owner -/

/-- A control request whose length is judged right after its authority is judged by `controlled` (R177). -/
theorem serve_controlled {k : RequestKind} (ha : k.needsAuthority = true) (hk : k.lengthLater = false) (p : Port)
    (bs : List Byte) (s : State) : ∃ v, serve k p bs s = controlled k p bs s v := by
  cases k
  case profileVertices | writeConfig | jog => cases hk
  all_goals first | exact ⟨_, rfl⟩ | cases ha

/-- A request that needs no authority, TAKE_CONTROL and RELEASE_CONTROL apart, is judged by `uncontrolled` (R177). -/
theorem serve_uncontrolled {k : RequestKind} (ha : k.needsAuthority = false) (ht : k ≠ .takeControl)
    (hr : k ≠ .releaseControl) (p : Port) (bs : List Byte) (s : State) :
    ∃ v, serve k p bs s = uncontrolled k bs s v := by
  cases k
  case takeControl => exact absurd rfl ht
  case releaseControl => exact absurd rfl hr
  all_goals first | exact ⟨_, rfl⟩ | cases ha

/-- The holder of authority is judged alike with a request in service (R177). -/
theorem inService_holds_of {s : State} {p : Port} (h : s.lif.holder = some p) (f : Frame) :
    (s.inService p f).holds p = true := by
  simp [State.holds, h]

theorem inService_not_holds_of {s : State} {p : Port} (h : s.lif.holder ≠ some p) (f : Frame) :
    (s.inService p f).holds p = false := by
  simp [State.holds, h]

theorem RequestKind.lengthOk_iff {k : RequestKind} {n : Nat} (h : k.length = some n) (bs : List Byte) :
    k.lengthOk bs = true ↔ bs.length = n := by
  simp [RequestKind.lengthOk, h]

/-- A request kind of a fixed length judges a payload of another length too long or too short. -/
theorem RequestKind.lengthOk_eq_false {k : RequestKind} {n : Nat} (h : k.length = some n) {bs : List Byte}
    (hn : bs.length ≠ n) : k.lengthOk bs = false :=
  eq_false_of_ne_true fun e => hn ((k.lengthOk_iff h bs).mp e)

theorem controlled_notInControl {s : State} {p : Port} (h : s.holds p = false) (k : RequestKind) (bs : List Byte)
    (v : Served) : controlled k p bs s v = refuse .notInControl s := by
  simp [controlled, h]

theorem controlled_badLength {s : State} {p : Port} (h : s.holds p = true) {k : RequestKind} {bs : List Byte}
    (hk : k.lengthOk bs = false) (v : Served) : controlled k p bs s v = refuse .badLength s := by
  simp [controlled, h, hk]

theorem controlled_ok {s : State} {p : Port} (h : s.holds p = true) {k : RequestKind} {bs : List Byte}
    (hk : k.lengthOk bs = true) (v : Served) : controlled k p bs s v = v := by
  simp [controlled, h, hk]

theorem uncontrolled_badLength {k : RequestKind} {bs : List Byte} (hk : k.lengthOk bs = false) (s : State)
    (v : Served) : uncontrolled k bs s v = refuse .badLength s := by
  simp [uncontrolled, hk]

theorem uncontrolled_ok {k : RequestKind} {bs : List Byte} (hk : k.lengthOk bs = true) (s : State) (v : Served) :
    uncontrolled k bs s v = v := by
  simp [uncontrolled, hk]

/-- Without authority every control request is refused, whatever its frame holds (R177). -/
theorem serve_notInControl {k : RequestKind} (ha : k.needsAuthority = true) {s : State} {p : Port}
    (h : s.holds p = false) (bs : List Byte) : serve k p bs s = refuse .notInControl s := by
  cases hk : k.lengthLater
  · obtain ⟨v, e⟩ := serve_controlled ha hk p bs s
    rw [e, controlled_notInControl h]
  · cases k
    case profileVertices => simp [serve, serveProfileVertices, h]
    case writeConfig => simp [serve, serveWriteConfig, h]
    case jog => simp [serve, serveJog, h]
    all_goals exact nomatch hk

/-- A wrong length is refused next, where no other condition stands before it (R177). -/
theorem serve_badLength {k : RequestKind} {n : Nat} (hk : k.length = some n) {bs : List Byte} (hn : bs.length ≠ n)
    (hlater : k.lengthLater = false) (ht : k ≠ .takeControl) (hr : k ≠ .releaseControl) {s : State} {p : Port}
    (h : k.needsAuthority = true → s.holds p = true) : serve k p bs s = refuse .badLength s := by
  have hlen := k.lengthOk_eq_false hk hn
  cases ha : k.needsAuthority
  · obtain ⟨v, e⟩ := serve_uncontrolled ha ht hr p bs s
    rw [e, uncontrolled_badLength hlen]
  · obtain ⟨v, e⟩ := serve_controlled ha hlater p bs s
    rw [e, controlled_badLength (h ha) hlen]

@[simp] theorem field_zero_one (a : Byte) (bs : List Byte) : field (a :: bs) 0 1 = a.toNat := by
  simp [field, beNat]

@[simp] theorem field_one_one (a b : Byte) (bs : List Byte) : field (a :: b :: bs) 1 1 = b.toNat := by
  simp [field, beNat]

/-- Settles O11: authority, selector and length are judged from the state the request found. -/
theorem requestRefusedBeforeItsRule : Obligations.RequestRefusedBeforeItsRule := by
  intro p tag bs s ht hl hs refused holder
  have refuses : ∀ {k st c}, serve k p bs (s.inService p ⟨tag, k.code, bs⟩)
      = ⟨s.inService p ⟨tag, k.code, bs⟩, ⟨st, c⟩⟩ → refused k st c := exec_serving ht hl hs
  have holds : s.lif.holder = some p → ∀ f, (s.inService p f).holds p = true := inService_holds_of
  have free : s.lif.holder ≠ some p → ∀ f, (s.inService p f).holds p = false := inService_not_holds_of
  refine ⟨fun k ha h => ?_, fun k n hk hn hlater hnt hnr h => ?_, fun h hsel => ?_, fun h hsel hn => ?_,
    fun h hsel => ?_, fun h hsel hn => ?_, fun h hn => ?_, fun first count rest h e => ⟨fun hh => ?_, fun hh hc => ?_,
    fun hh hlow hhigh hn => ?_⟩, fun hn => ?_, fun h => ?_, fun h hn => ?_⟩
  · exact refuses (serve_notInControl ha (free h _) bs)
  · exact refuses (serve_badLength hk hn hlater hnt hnr fun ha => holds (h ha) _)
  · exact refuses (by simp [serve, serveJog, holds h, hsel, refuse])
  · have hlen := RequestKind.lengthOk_eq_false (k := .jog) rfl hn
    exact refuses (by simp [serve, serveJog, holds h, hsel, hlen, refuse])
  · exact refuses (by simp [serve, serveWriteConfig, holds h, hsel, refuse])
  · have hlen := RequestKind.lengthOk_eq_false (k := .writeConfig) rfl hn
    exact refuses (by simp [serve, serveWriteConfig, holds h, hsel, hlen, refuse])
  · exact refuses (by simp [serve, serveProfileVertices, holds h, hn, refuse])
  · subst e; exact refuses (by simp [serve, serveProfileVertices, holds h, hh, refuse])
  · subst e
    refine refuses ?_
    obtain ⟨hd, hh⟩ := Option.isSome_iff_exists.mp hh
    have hr : inRange 1 12 count.toNat = false :=
      eq_false_of_ne_true fun e => by have := inRange_iff.mp e; omega
    simp [serve, serveProfileVertices, holds h, hh, hr, refuse]
  · subst e
    refine refuses ?_
    obtain ⟨hd, hh⟩ := Option.isSome_iff_exists.mp hh
    have hr : inRange 1 12 count.toNat = true := inRange_iff.mpr ⟨hlow, hhigh⟩
    have hlen : rest.length + 1 + 1 ≠ 2 + 19 * count.toNat := by omega
    simp [serve, serveProfileVertices, holds h, hh, hr, hlen, refuse]
  · have hlen := RequestKind.lengthOk_eq_false (k := .takeControl) rfl hn
    exact refuses (by simp [serve, serveTakeControl, hlen, holderReply, holder])
  · exact refuses (by simp [serve, serveReleaseControl, free h, holderReply, holder])
  · have hlen := RequestKind.lengthOk_eq_false (k := .releaseControl) rfl hn
    exact refuses (by simp [serve, serveReleaseControl, holds h, hlen, holderReply, holder])

/-! ### The staged upload -/

@[simp] theorem field_cons_cons (a b : Byte) (rest : List Byte) (off len : Nat) :
    field (a :: b :: rest) (off + 2) len = field rest off len := rfl

@[simp] theorem byteAt_cons_cons (a b : Byte) (rest : List Byte) (off : Nat) :
    byteAt (a :: b :: rest) (off + 2) = byteAt rest off := rfl

theorem VertexPlan.read_cons_cons (a b : Byte) (rest : List Byte) (off : Nat) :
    VertexPlan.read (a :: b :: rest) (off + 2) = VertexPlan.read rest off := by
  simp only [VertexPlan.read, Nat.add_right_comm off 2, field_cons_cons, byteAt_cons_cons]

/-- A vertex stands two bytes further on behind the first index and the count. -/
theorem Vertex.read_cons_cons (a b : Byte) (rest : List Byte) (off : Nat) :
    Vertex.read (a :: b :: rest) (off + 2) = Vertex.read rest off := by
  simp only [Vertex.read, field_cons_cons, Nat.add_right_comm off 2, VertexPlan.read_cons_cons]

@[simp] theorem readVertices_length (bs : List Byte) (n off : Nat) : (readVertices bs n off).length = n := by
  induction n generalizing off with
  | zero => rfl
  | succ n ih => simp [readVertices, ih]

theorem readVertices_getElem? (bs : List Byte) {n k : Nat} (hk : k < n) (off : Nat) :
    (readVertices bs n off)[k]? = some (Vertex.read bs (off + 19 * k)) := by
  induction n generalizing k off with
  | zero => omega
  | succ n ih =>
    cases k with
    | zero => rfl
    | succ k =>
      have e : off + 19 + 19 * k = off + 19 * (k + 1) := by omega
      rw [readVertices, List.getElem?_cons_succ, ih (by omega), e]

@[simp] theorem writeVertices_length (ws : List Vertex) (vs : List Vertex) (i : Nat) :
    (writeVertices vs i ws).length = vs.length := by
  induction ws generalizing vs i with
  | nil => rfl
  | cons w ws ih => simp [writeVertices, ih]

/-- Vertices written from an index on stand there in their order, and every other place is kept. -/
theorem writeVertices_getElem? (ws : List Vertex) (vs : List Vertex) {i : Nat} (h : i + ws.length ≤ vs.length)
    (j : Nat) : (writeVertices vs i ws)[j]? = if i ≤ j ∧ j < i + ws.length then ws[j - i]? else vs[j]? := by
  induction ws generalizing vs i with
  | nil => simp only [writeVertices, List.length_nil]; rw [if_neg (by omega)]
  | cons w ws ih =>
    simp only [List.length_cons] at h ⊢
    rw [writeVertices, ih _ (by rw [List.length_set]; omega), List.getElem?_set]
    rcases Nat.lt_trichotomy j i with hj | rfl | hj
    · rw [if_neg (by omega), if_neg (by omega), if_neg (by omega)]
    · rw [if_neg (by omega), if_pos rfl, if_pos (by omega), if_pos (by omega), Nat.sub_self, List.getElem?_cons_zero]
    · obtain ⟨k, rfl⟩ : ∃ k, j = i + 1 + k := ⟨j - (i + 1), by omega⟩
      have e : i + 1 + k - i = k + 1 := by omega
      rw [e, List.getElem?_cons_succ, Nat.add_sub_cancel_left, if_neg (by omega : ¬ i = i + 1 + k)]
      by_cases hk : k < ws.length
      · rw [if_pos (by omega), if_pos (by omega)]
      · rw [if_neg (by omega), if_neg (by omega)]

/-- The staging buffer after `count` vertices taken from index `first` on (R10). -/
def PstState.stageVertices (q : PstState) (first count : Nat) (bs : List Byte) : PstState :=
  { q with
    stagedVertices := writeVertices q.stagedVertices first (readVertices bs count 2)
    supplied := max q.supplied (first + count) }

/-- The vertices of a run stand at their indices in the staging buffer, every other one kept (R10). -/
theorem PstState.stageVertices_getElem? {q : PstState} (hq : q.stagedVertices.length = 96) {first count : Nat}
    (h : first + count ≤ 96) (a b : Byte) (rest : List Byte) (i : Nat) :
    (q.stageVertices first count (a :: b :: rest)).stagedVertices[i]? =
      if first ≤ i ∧ i < first + count then some (Vertex.read rest (19 * (i - first))) else q.stagedVertices[i]? := by
  refine (writeVertices_getElem? _ _ (by simpa [hq] using h) i).trans ?_
  rw [readVertices_length]
  split
  · rw [readVertices_getElem? _ (by omega), Nat.add_comm 2, Vertex.read_cons_cons]
  · rfl

/-- PROFILE_VERTICES with authority, a staged header, a sound count and the length the count asks for (R10). -/
theorem serveProfileVertices_run {s : State} {p : Port} (h : s.holds p = true) (hh : s.pst.stagedHeader.isSome)
    {first count : Byte} {rest : List Byte} (hlow : 1 ≤ count.toNat) (hhigh : count.toNat ≤ 12)
    (hlen : rest.length = 19 * count.toNat) : serve .profileVertices p (first :: count :: rest) s =
      if s.pst.supplied < first.toNat then refuse .badValue s
      else if 96 < first.toNat + count.toNat then refuse .badValue s
      else answer [byteOf (max s.pst.supplied (first.toNat + count.toNat))] (s.onPst fun q =>
        q.stageVertices first.toNat count.toNat (first :: count :: rest)) := by
  obtain ⟨hd, hh⟩ := Option.isSome_iff_exists.mp hh
  have hr : inRange 1 12 count.toNat = true := inRange_iff.mpr ⟨hlow, hhigh⟩
  have hlen' : rest.length + 1 + 1 = 2 + 19 * count.toNat := by omega
  have htwo : ¬ 2 + 19 * count.toNat < 2 := by omega
  simp only [serve, serveProfileVertices, h, hh, field_zero_one, field_one_one, hr, List.length_cons, hlen', htwo,
    Bool.not_true, Bool.false_eq_true, Option.isNone_some, ne_eq, not_true_eq_false, if_false]
  rfl

theorem serveBeginProfile_run {s : State} {p : Port} (h : s.holds p = true) {bs : List Byte} (hlen : bs.length = 51) :
    serve .beginProfile p bs s =
      answer [] (s.onPst fun q => { q with stagedHeader := some (Header.read bs), supplied := 0 }) :=
  controlled_ok h ((RequestKind.lengthOk_iff rfl bs).mpr hlen) _

/-- Settles O26. -/
theorem stagedUploadFillsBuffer : Obligations.StagedUploadFillsBuffer := by
  intro p tag bs s ht hs h
  have holds : ∀ f, (s.inService p f).holds p = true := inService_holds_of h
  refine ⟨fun hlen => ?_, fun first count rest e hh hlow hhigh hlen => ?_⟩
  · exact exec_serving (k := .beginProfile) ht (by omega) hs (serveBeginProfile_run (holds _) hlen)
  subst e
  have hl : (first :: count :: rest).length ≤ 240 := by simp only [List.length_cons]; omega
  have run := fun f => serveProfileVertices_run (first := first) (holds f) hh hlow hhigh hlen
  refine ⟨fun hfirst => ?_, fun hfirst hend => ?_, fun hfirst hend hstaged => ?_⟩
  · exact exec_serving (k := .profileVertices) ht hl hs ((run _).trans (if_pos hfirst))
  · exact exec_serving (k := .profileVertices) ht hl hs
      (((run _).trans (if_neg (Nat.not_lt.mpr hfirst))).trans (if_pos hend))
  · refine ⟨s.onPst fun q => q.stageVertices first.toNat count.toNat (first :: count :: rest),
      exec_serving (k := .profileVertices) ht hl hs
        (((run _).trans (if_neg (Nat.not_lt.mpr hfirst))).trans (if_neg (Nat.not_lt.mpr hend))),
      ⟨rfl, rfl, fun b hb => ?_⟩, rfl, (writeVertices_length _ _ _).trans hstaged,
      PstState.stageVertices_getElem? hstaged hend first count rest⟩
    cases b <;> first | rfl | exact absurd (List.mem_singleton.mpr rfl) hb

/-! ### The store's writes begin -/

/-- COMMIT_PROFILE with authority: the conditions of R11 in their order. -/
theorem serveCommitProfile_run {s : State} {p : Port} (h : s.holds p = true) (n count : Byte) :
    serve .commitProfile p [n, count] s =
      if s.pfm.selector = .auto then refuse .selector s
      else if !inRange 1 32 n.toNat then refuse .badValue s
      else
        match s.pst.stagedHeader with
        | none => refuse .wrongState s
        | some hd =>
          if s.pst.supplied < count.toNat then refuse .badValue s
          else if s.pst.channel.isSome then refuse .busy s
          else if s.boundSlot n.toNat then refuse .busy s
          else
            match profileCheck s.config ⟨hd, s.pst.stagedVertices.take count.toNat⟩ with
            | some (code, i) => ⟨s, ⟨.profileInvalid, [byteOf code.code, byteOf i]⟩⟩
            | none => answer [] (s.onPst fun q =>
                q.beginSlotWrite n.toNat (.commit n.toNat ⟨hd, s.pst.stagedVertices.take count.toNat⟩)) := by
  refine (controlled_ok h ((RequestKind.lengthOk_iff rfl _).mpr rfl) _).trans ?_
  simp only [field_zero_one, field_one_one] <;> rfl

/-- ERASE_PROFILE with authority: the conditions of R13 in their order. -/
theorem serveEraseProfile_run {s : State} {p : Port} (h : s.holds p = true) (n : Byte) :
    serve .eraseProfile p [n] s =
      if s.pfm.selector = .auto then refuse .selector s
      else if !inRange 1 32 n.toNat then refuse .badValue s
      else if s.pst.channel.isSome then refuse .busy s
      else if s.boundSlot n.toNat then refuse .busy s
      else if (s.pst.slot n.toNat).state = .empty then answer [] s
      else answer [] (s.onPst fun q => q.beginSlotWrite n.toNat (.erase n.toNat)) := by
  refine (controlled_ok h ((RequestKind.lengthOk_iff rfl _).mpr rfl) _).trans ?_
  simp only [field_zero_one]

/-- WRITE_CONFIG with authority, out of AUTO, at its length: the conditions of R18 in their order. -/
theorem serveWriteConfig_run {s : State} {p : Port} (h : s.holds p = true) {bs : List Byte} (hlen : bs.length = 45) :
    serve .writeConfig p bs s =
      if s.pfm.selector = .auto then refuse .selector s
      else
        match configCheck (ConfigRecord.read bs) with
        | some n => ⟨s, ⟨.badValue, [byteOf n]⟩⟩
        | none =>
          if s.pst.channel.isSome then refuse .busy s
          else if s.scanRunning then refuse .busy s
          else answer [] (s.onPst fun q =>
            { q with
              channel := some (.config (ConfigRecord.read bs)), stored := { q.stored with writeMark := true } }) := by
  have hok : RequestKind.writeConfig.lengthOk bs = true := (RequestKind.lengthOk_iff rfl _).mpr hlen
  simp only [serve, serveWriteConfig, h, hok, Bool.not_true, Bool.false_eq_true, if_false] <;> rfl

theorem slotNumber_bad {n : Nat} (h : n = 0 ∨ 32 < n) : inRange 1 32 n = false :=
  eq_false_of_ne_true fun e => by have := inRange_iff.mp e; omega

theorem slotNumber_good {n : Nat} (h : 1 ≤ n) (h' : n ≤ 32) : inRange 1 32 n = true := inRange_iff.mpr ⟨h, h'⟩

/-- Settles O27: each request by its conditions in order. -/
theorem storeWriteBeginsAtAcceptance : Obligations.StoreWriteBeginsAtAcceptance := by
  intro p tag s ht hs h
  have holds : ∀ f, (s.inService p f).holds p = true := inService_holds_of h
  have config : ∀ f, (s.inService p f).config = s.config := fun _ => rfl
  have running : ∀ f, (s.inService p f).scanRunning = s.scanRunning := fun _ => rfl
  have bound : ∀ f n, (s.inService p f).boundSlot n = s.boundSlot n := fun _ _ => rfl
  refine ⟨fun n count => ?_, fun bs hlen => ?_⟩
  · intro commit erase
    have commits : ∀ {u : State} {st c}, serve .commitProfile p [n, count]
          (s.inService p ⟨tag, RequestKind.commitProfile.code, [n, count]⟩)
        = ⟨u.inService p ⟨tag, RequestKind.commitProfile.code, [n, count]⟩, ⟨st, c⟩⟩ →
        exec (.commitProfile p tag [n, count]) s = .next (u.reply p tag .commitProfile [n, count] st c) :=
      exec_serving (k := .commitProfile) ht (by simp) hs
    have erases : ∀ {u : State} {st c}, serve .eraseProfile p [n]
          (s.inService p ⟨tag, RequestKind.eraseProfile.code, [n]⟩)
        = ⟨u.inService p ⟨tag, RequestKind.eraseProfile.code, [n]⟩, ⟨st, c⟩⟩ →
        exec (.eraseProfile p tag [n]) s = .next (u.reply p tag .eraseProfile [n] st c) :=
      exec_serving (k := .eraseProfile) ht (by simp) hs
    have commitRun := serveCommitProfile_run (holds ⟨tag, RequestKind.commitProfile.code, [n, count]⟩) n count
    have eraseRun := serveEraseProfile_run (holds ⟨tag, RequestKind.eraseProfile.code, [n]⟩) n
    simp only [State.inService_frame, config, bound] at commitRun eraseRun
    refine ⟨fun hsel => ⟨commits ?_, erases ?_⟩, fun hsel hn => ⟨commits ?_, erases ?_⟩, fun hsel hlow hhigh =>
      ⟨fun hh => commits ?_, fun hd hh => ⟨fun hc => commits ?_, fun hc hbusy => commits ?_, fun hc hidle hfree =>
        ⟨fun code i hcheck => commits ?_, fun hcheck => commits ?_⟩⟩,
      fun hbusy => erases ?_, fun hidle hfree => ⟨fun he => erases ?_, fun he => erases ?_⟩⟩⟩
    · simp [commitRun, hsel, refuse]
    · simp [eraseRun, hsel, refuse]
    · simp [commitRun, hsel, slotNumber_bad hn, refuse]
    · simp [eraseRun, hsel, slotNumber_bad hn, refuse]
    · simp [commitRun, hsel, slotNumber_good hlow hhigh, hh, refuse]
    · simp [commitRun, hsel, slotNumber_good hlow hhigh, hh, hc, refuse]
    · have hcount := Nat.not_lt.mpr hc
      rcases hbusy with hb | hb
      · simp [commitRun, hsel, slotNumber_good hlow hhigh, hh, hcount, hb, refuse]
      · simp [commitRun, hsel, slotNumber_good hlow hhigh, hh, hcount, (boundSlot_iff s _).mpr hb, refuse]
    · simp [commitRun, hsel, slotNumber_good hlow hhigh, hh, Nat.not_lt.mpr hc, hidle, boundSlot_iff, hfree, hcheck]
    · simp [commitRun, hsel, slotNumber_good hlow hhigh, hh, Nat.not_lt.mpr hc, hidle, boundSlot_iff, hfree, hcheck,
        answer] <;> rfl
    · rcases hbusy with hb | hb
      · simp [eraseRun, hsel, slotNumber_good hlow hhigh, hb, refuse]
      · simp [eraseRun, hsel, slotNumber_good hlow hhigh, (boundSlot_iff s _).mpr hb, refuse]
    · simp [eraseRun, hsel, slotNumber_good hlow hhigh, hidle, boundSlot_iff, hfree, he, answer]
    · simp [eraseRun, hsel, slotNumber_good hlow hhigh, hidle, boundSlot_iff, hfree, he, answer] <;> rfl
  · have run := serveWriteConfig_run (holds ⟨tag, RequestKind.writeConfig.code, bs⟩) hlen
    simp only [State.inService_frame, running] at run
    have writes : ∀ {u : State} {st c}, serve .writeConfig p bs (s.inService p ⟨tag, RequestKind.writeConfig.code, bs⟩)
        = ⟨u.inService p ⟨tag, RequestKind.writeConfig.code, bs⟩, ⟨st, c⟩⟩ →
        exec (.writeConfig p tag bs) s = .next (u.reply p tag .writeConfig bs st c) :=
      exec_serving (k := .writeConfig) ht (by omega) hs
    refine ⟨fun hsel => writes ?_, fun hsel => ⟨fun n hcheck => writes ?_, fun hcheck => ⟨fun hbusy => writes ?_,
      fun hidle hrest => writes ?_⟩⟩⟩
    · simp [run, hsel, refuse]
    · simp [run, hsel, hcheck]
    · rcases hbusy with hb | hb
      · simp [run, hsel, hcheck, hb, refuse]
      · simp [run, hsel, hcheck, hb, refuse]
    · simp [run, hsel, hcheck, hidle, hrest, answer] <;> rfl

end Sys2Proof.Machine
end

section
/-! Resets, the start-up check and the completions of the store's writes (O4, O6, O36, O53). -/

namespace Sys2Proof.Machine

/-! ### Resets -/

/-- Each of the three resets is a reset with its cause (R159, R184). -/
theorem Resets.exec_eq {c : Instr} {cause : ResetCause} {s : State} (h : Resets c cause s) :
    exec c s = .next (resetWith cause s) := by
  rcases h with ⟨rfl, rfl⟩ | ⟨rfl, rfl⟩ | ⟨p, f, rest, rfl, htx, hkind, hpayload, hpending, rfl⟩
  · rfl
  · rfl
  · simp [exec, execFrameSent, htx, Frame.isRestartReply, hkind, hpayload, hpending]

theorem LifState.reset_port (p : Port) : LifState.reset.port p = PortState.reset := by cases p <;> rfl

theorem QchState.reset_circuit (x : Circuit) : QchState.reset.circuit x = CircuitRec.reset := by cases x <;> rfl

theorem permitGet_permitAll {α : Type} (v : α) (x : Permit) : permitGet (permitAll v) x = v := by cases x <;> rfl

@[simp] theorem resetWith_lif (cause : ResetCause) (s : State) : (resetWith cause s).lif = LifState.reset := rfl
@[simp] theorem resetWith_ord (cause : ResetCause) (s : State) : (resetWith cause s).ord = OrdState.reset := rfl
@[simp] theorem resetWith_pst (cause : ResetCause) (s : State) : (resetWith cause s).pst = s.pst.afterReset := rfl
@[simp] theorem resetWith_seq (cause : ResetCause) (s : State) : (resetWith cause s).seq = SeqState.reset := rfl
@[simp] theorem resetWith_spg (cause : ResetCause) (s : State) : (resetWith cause s).spg = SpgState.reset := rfl
@[simp] theorem resetWith_slt (cause : ResetCause) (s : State) : (resetWith cause s).slt = SltState.reset := rfl
@[simp] theorem resetWith_pfm (cause : ResetCause) (s : State) : (resetWith cause s).pfm = PfmState.reset cause := rfl
@[simp] theorem resetWith_axc (cause : ResetCause) (s : State) : (resetWith cause s).axc = AxcState.reset := rfl
@[simp] theorem resetWith_cnv (cause : ResetCause) (s : State) : (resetWith cause s).cnv = CnvState.reset := rfl
@[simp] theorem resetWith_qch (cause : ResetCause) (s : State) : (resetWith cause s).qch = QchState.reset := rfl

/-- Settles O4: every block is at its reset value, the slots and the stored record as they were. -/
theorem resetRestsEveryBlock : Obligations.ResetRestsEveryBlock := by
  intro c cause s h
  refine ⟨resetWith cause s, h.exec_eq, ?_⟩
  simp only [resetWith_lif, resetWith_ord, resetWith_pst, resetWith_seq, resetWith_spg, resetWith_slt, resetWith_pfm,
    resetWith_axc, resetWith_cnv, resetWith_qch, LifState.reset_port, QchState.reset_circuit]
  simp [resetWith, State.reset, LifState.reset, PortState.reset, OrdState.reset, PstState.afterReset, PstState.reset,
    SeqState.reset, SpgState.reset, SltState.reset, PfmState.reset, permitGet_permitAll, AxcState.reset, CnvState.reset,
    QchState.reset, CircuitRec.reset, List.replicate]

/-! ### The state after reset -/

/-- Settles O53: nothing runs, every valve is closed, the queues and patch slots are empty, no slot is WRITING. -/
theorem resetMeetsInvariants : Obligations.ResetMeetsInvariants := by
  have heat : HeatOnlyWhenAllowed State.reset := ⟨fun _ => rfl, fun h => absurd rfl h, rfl⟩
  refine ⟨⟨heat, ⟨by decide, by decide, by decide⟩, rfl, fun h => absurd rfl h⟩, ⟨heat, fun _ => rfl, by decide⟩,
    ⟨fun _ => rfl, fun c => ?_⟩, fun p => ?_, ⟨fun _ => rfl, fun _ => rfl⟩, ⟨by decide, by decide, by decide⟩,
    patchesDistinct_replicate State.reset.holdings, ⟨by decide, by decide⟩, (fun h => nomatch h),
    ⟨by decide, by decide⟩, ⟨by decide, by decide, by decide, by decide⟩,
    by decide, fun _ => rfl, (fun h => nomatch h), fun _ h => nomatch h⟩
  · cases c <;> exact ⟨by decide, by decide⟩
  · cases p <;> exact ⟨by decide, by decide, by decide⟩

/-! ### A fault taken by PFM -/

/-- The count of the fault taken rises by 1 and stays at 255 (R152). -/
theorem pfmTake_count {r : FaultReport} {s : State} (h : r.kind.row < s.pfm.counts.length) :
    (pfmTake r s).pfm.count r.kind = min 255 (s.pfm.count r.kind + 1) := by
  have modified : ∀ ns : List Nat, ns = s.pfm.counts →
      (ns.modify r.kind.row countUp).getD r.kind.row 0 = min 255 (s.pfm.count r.kind + 1) := by
    rintro ns rfl
    simp [PfmState.count, List.getD_eq_getElem?_getD, h, countUp]
  unfold pfmTake
  refine modified _ ?_
  cases s.pfm.firstFault <;> rfl

/-- The first fault since a clear is captured (R151). -/
theorem pfmTake_firstFault {s : State} (h : s.pfm.firstFault = none) (r : FaultReport) :
    (pfmTake r s).pfm.firstFault = some (captureOf r s) := by
  simp [pfmTake, h, notice, reformLamps]

/-! ### The start-up check -/

theorem StoredConfig.sound_iff (c : StoredConfig) :
    c.sound = true ↔ c.written = true ∧ c.writeMark = false ∧ c.crc = configCrc c.record := by
  simp [StoredConfig.sound, and_assoc]

/-- A slot by its start-up check (R16). -/
theorem Slot.startupCheck_spoilt {v : Slot} (h : v.state = .writing ∨ v.crc ≠ slotCrc v.state v.revision v.profile) :
    v.startupCheck.state = .invalid ∧ v.startupCheck.revision = 0 := by
  rw [Slot.startupCheck, if_pos h]; exact ⟨rfl, rfl⟩

theorem PstState.startup_slot {q : PstState} {n : Nat} (hq : q.slots.length = 32) (hn : 1 ≤ n) (hn' : n ≤ 32) :
    q.startup.slot n = (q.slot n).startupCheck := by
  have hlt : n - 1 < q.slots.length := by omega
  simp [PstState.slot, PstState.startup_slots, List.getD_eq_getElem?_getD, hlt]

theorem PstState.startup_stored (q : PstState) : q.startup.stored = q.stored := by
  unfold PstState.startup PstState.loadConfig
  split <;> rfl

theorem PstState.startup_sound {q : PstState} (h : q.stored.sound = true) :
    q.startup.inForce = q.stored.record ∧ q.startup.source = .stored := by
  unfold PstState.startup PstState.loadConfig
  rw [if_pos h]; exact ⟨rfl, rfl⟩

theorem PstState.startup_unsound {q : PstState} (h : ¬ q.stored.sound = true) :
    q.startup.inForce = ConfigRecord.defaults ∧ q.startup.source = .defaults := by
  unfold PstState.startup PstState.loadConfig
  rw [if_neg h]; exact ⟨rfl, rfl⟩

/-- The part at the end of the start-up phase, before CONFIG_DEFAULTED is taken (R183). -/
def startedUp (f : FirstLevels) (s : State) : State :=
  let s := s.onPst PstState.startup
  let s := (s.onAxc fun a => a.startup f).onCnv fun c => c.startup f
  let s := (s.onPfm fun p => p.startup f.monitor).onOrd fun d => d.startup f.monitor
  reformLamps (s.setStartup false)

theorem endStartup_eq (f : FirstLevels) (s : State) : endStartup f s = takeDefaulted (startedUp f s) := rfl

theorem takeDefaulted_stored {s : State} (h : s.pst.source = .stored) : takeDefaulted s = s := by
  simp [takeDefaulted, h]

theorem takeDefaulted_defaults {s : State} (h : s.pst.source = .defaults) :
    takeDefaulted s = pfmTake ⟨.configDefaulted, .noItem, s.seq.scanState⟩ s := by
  simp [takeDefaulted, h]

theorem endStartup_pst (f : FirstLevels) (s : State) : (endStartup f s).pst = s.pst.startup := by
  rw [endStartup_eq]; unfold takeDefaulted
  split
  · rfl
  · rw [(pfmTake_frame _ _).2.1]; rfl

theorem execStartupEnd_next {f : FirstLevels} {s : State} (hs : s.startup = true) (hf : f.encoder ≤ 250000) :
    exec (.startupEnd f) s = .next (endStartup f s) := by
  simp [exec, execStartupEnd, withEncoder, hs, positionMax, hf]

/-- Settles O6. -/
theorem startupChecksStore : Obligations.StartupChecksStore := by
  intro f s hs hf hslots hcounts
  refine ⟨endStartup f s, execStartupEnd_next hs hf, ?_⟩
  simp only [endStartup_pst]
  refine ⟨by simpa [PstState.startup_slots] using hslots, s.pst.startup_stored, fun n hn hn' => ?_, ?_⟩
  · rw [PstState.startup_slot hslots hn hn']
    split
    · next h => exact Slot.startupCheck_spoilt h
    · next h => exact if_neg h
  · split
    · next h =>
      obtain ⟨hforce, hsource⟩ := PstState.startup_sound ((StoredConfig.sound_iff _).mpr h)
      have e : endStartup f s = startedUp f s := takeDefaulted_stored (s := startedUp f s) hsource
      exact ⟨hforce, hsource, by rw [e]; rfl, by rw [e]; rfl⟩
    · next h =>
      obtain ⟨hforce, hsource⟩ := PstState.startup_unsound fun e => h ((StoredConfig.sound_iff _).mp e)
      have e : endStartup f s = pfmTake ⟨.configDefaulted, .noItem, s.seq.scanState⟩ (startedUp f s) :=
        takeDefaulted_defaults (s := startedUp f s) hsource
      refine ⟨hforce, hsource, ?_, fun hnone => ?_⟩
      · have hrow : Cause.configDefaulted.row < s.pfm.counts.length := by rw [hcounts]; decide
        rw [e]
        exact pfmTake_count (s := startedUp f s) hrow
      · rw [e]
        exact ⟨_, pfmTake_firstFault (s := startedUp f s) hnone _, rfl, rfl, rfl⟩

/-! ### Completions -/

/-- The STORE notice of a slot as PST builds it reads as Table 11-11 says. -/
theorem storeNotice_payload (n : Nat) (failed : Bool) (st : SlotState) (revision : Nat) :
    StoreNotice n failed st revision ([byteOf n, flagByte failed, byteOf st.code] ++ beBytes 2 revision) := by
  simp only [StoreNotice, beBytes_two, List.cons_append, List.nil_append, field, beNat, List.drop_succ_cons,
    List.drop_zero, List.take_succ_cons, List.take_zero, List.foldl_cons, List.foldl_nil, byteOf_toNat,
    List.length_cons, List.length_nil, Nat.zero_mul, Nat.zero_add]
  refine ⟨trivial, trivial, ?_, Nat.mod_eq_of_lt st.code_lt, by omega⟩
  cases failed <;> rfl

/-- The slot a completion leaves is the slot written (R12, R13). -/
theorem setSlot_slot {q : PstState} {n : Nat} (hq : q.slots.length = 32) (hn : 1 ≤ n) (hn' : n ≤ 32) (v : Slot) :
    (q.setSlot n v).slot n = v := by
  refine (getD_set_slot hq hn hn' hn v).trans (if_pos rfl)

/-- The store after a slot's completion (R8, R12, R13). -/
def State.slotDone (n : Nat) (v : Slot) (s : State) : State := s.onPst fun q => { q.setSlot n v with channel := none }

theorem slotNotice_notified (n : Nat) (verified : Bool) (s : State) {v : Slot} (hv : s.pst.slot n = v) :
    ∃ b, Notified [(.store, b)] s (slotNotice n verified s) ∧ StoreNotice n (!verified) v.state v.revision b := by
  subst hv
  exact ⟨_, notice_notified _ _ s, storeNotice_payload _ _ _ _⟩

/-- A verified slot write: the slot put, the channel idle, a STORE notice, nothing else (R12, R13). -/
theorem completeSlot_verified {s : State} (hs : s.pst.slots.length = 32) {n : Nat} (hn : 1 ≤ n) (hn' : n ≤ 32)
    (v : Slot) : ChangesOnly [.pst, .lif] s (completeSlot n true v s)
      ∧ (∃ b, Notified [(.store, b)] s (completeSlot n true v s) ∧ StoreNotice n false v.state v.revision b)
      ∧ (completeSlot n true v s).pst = { s.pst with slots := s.pst.slots.set (n - 1) v, channel := none } := by
  refine ⟨⟨rfl, rfl, fun b hb => ?_⟩, ?_, rfl⟩
  · cases b <;> first | rfl | exact absurd (by decide) hb
  · obtain ⟨b, hb, hnotice⟩ := slotNotice_notified n true (s.slotDone n v) (setSlot_slot hs hn hn' v)
    exact ⟨b, hb.congr rfl rfl, hnotice⟩

/-- STORE_WRITE taken by PFM: the capture, the count and the FAULT notice (R150 to R153). -/
theorem storeWriteFault_taken (item : CircuitItem) {s : State} (hc : s.pfm.counts.length = 19) :
    (∃ f, Notified [(.fault, f)] s (storeWriteFault item s) ∧ FaultNotice .storeWrite item s.seq.scanState s.seq.clock
        ((storeWriteFault item s).pfm.count .storeWrite) s.pfm.firstFault.isNone f)
      ∧ (storeWriteFault item s).pfm.count .storeWrite = min 255 (s.pfm.count .storeWrite + 1)
      ∧ (s.pfm.firstFault = none → ∃ r, (storeWriteFault item s).pfm.firstFault = some r ∧ r.kind = .storeWrite
        ∧ r.item = item) := by
  have hrow : Cause.storeWrite.row < s.pfm.counts.length := by rw [hc]; decide
  exact ⟨⟨_, pfmTake_notified _ s, faultNotice_payload _ _ _ _⟩, pfmTake_count (s := s) hrow,
    fun h => ⟨_, pfmTake_firstFault h _, rfl, rfl⟩⟩

/-- A failed slot write: the slot put, the channel idle, STORE_WRITE taken, a FAULT and a STORE notice (R12, R13). -/
theorem completeSlot_failed {s : State} (hs : s.pst.slots.length = 32) (hc : s.pfm.counts.length = 19) {n : Nat}
    (hn : 1 ≤ n) (hn' : n ≤ 32) (v : Slot) : ChangesOnly [.pst, .pfm, .lif, .free] s (completeSlot n false v s)
      ∧ (∃ f b ns, Notified ns s (completeSlot n false v s) ∧ ns.Perm [(.fault, f), (.store, b)]
        ∧ StoreNotice n true v.state v.revision b
        ∧ FaultNotice .storeWrite (.slot n) s.seq.scanState s.seq.clock
          ((completeSlot n false v s).pfm.count .storeWrite) s.pfm.firstFault.isNone f)
      ∧ (completeSlot n false v s).pst = { s.pst with slots := s.pst.slots.set (n - 1) v, channel := none }
      ∧ (completeSlot n false v s).pfm.count .storeWrite = min 255 (s.pfm.count .storeWrite + 1)
      ∧ (s.pfm.firstFault = none → ∃ r, (completeSlot n false v s).pfm.firstFault = some r ∧ r.kind = .storeWrite
        ∧ r.item = .slot n) := by
  have e : completeSlot n false v s = slotNotice n false (storeWriteFault (.slot n) (s.slotDone n v).bumpFree) := rfl
  obtain ⟨⟨f, hf, hfault⟩, hcount, hfirst⟩ := storeWriteFault_taken (.slot n) (s := (s.slotDone n v).bumpFree) hc
  have hslot : (storeWriteFault (.slot n) (s.slotDone n v).bumpFree).pst.slot n = v := by
    rw [(storeWriteFault_frame _ _).2.1]; exact setSlot_slot hs hn hn' v
  obtain ⟨b, hb, hstore⟩ := slotNotice_notified n false _ hslot
  rw [e]
  refine ⟨⟨?_, ?_, fun k hk => ?_⟩, ⟨f, b, _, (hf.trans hb).congr rfl rfl, .refl _, hstore, hfault⟩, ?_, hcount, hfirst⟩
  · simp [State.slotDone]
  · simp [State.slotDone]
  · cases k <;> first | exact absurd (by decide) hk | simp [Block.same, State.slotDone]
  · simp [State.slotDone, PstState.setSlot]

/-- A failed configuration write leaves a record that its CRC does not match (R18). -/
theorem configFailed_crc (q : PstState) (n : Nat) :
    (q.configFailed n).stored.crc ≠ configCrc (q.configFailed n).stored.record := by
  intro h
  have h0 := congrArg (fun v : BitVec 16 => v.getLsbD 0) h
  simp [PstState.configFailed] at h0

/-- A failed record write: the record kept in force, STORE_WRITE taken, a FAULT and a STORE notice (R18). -/
theorem configDone_failed {s : State} (hc : s.pfm.counts.length = 19) (n : Nat) :
    let t := configNotice false (storeWriteFault .configRecord (s.onPst fun q => q.configFailed n).bumpFree)
    ChangesOnly [.pst, .pfm, .lif, .free] s t
      ∧ (∃ f ns, Notified ns s t ∧ ns.Perm [(.fault, f), (.store, [0x21, 1, 0, 0, 0])]
        ∧ FaultNotice .storeWrite .configRecord s.seq.scanState s.seq.clock (t.pfm.count .storeWrite)
          s.pfm.firstFault.isNone f)
      ∧ t.pst = s.pst.configFailed n
      ∧ t.pfm.count .storeWrite = min 255 (s.pfm.count .storeWrite + 1)
      ∧ (s.pfm.firstFault = none → ∃ r, t.pfm.firstFault = some r ∧ r.kind = .storeWrite ∧ r.item = .configRecord) := by
  intro t
  obtain ⟨⟨f, hf, hfault⟩, hcount, hfirst⟩ :=
    storeWriteFault_taken .configRecord (s := (s.onPst fun q => q.configFailed n).bumpFree) hc
  refine ⟨⟨?_, ?_, fun k hk => ?_⟩, ⟨f, _, (hf.trans (notice_notified _ _ _)).congr rfl rfl, .refl _, hfault⟩, ?_,
    hcount, hfirst⟩
  · simp [t]
  · simp [t]
  · cases k <;> first | exact absurd (by decide) hk | simp [Block.same, t]
  · simp [t]

/-- Settles O36: each completion by the job its channel is busy with. -/
theorem writeCompletionLeavesTarget : Obligations.WriteCompletionLeavesTarget := by
  intro s hs hc
  refine ⟨fun n hn hn' => ⟨fun q hq => ?_, fun he => ?_, fun c hjob => ?_⟩, fun c hjob => ⟨?_, ?_⟩⟩
  · obtain ⟨hframe, hnotice, hpst⟩ := completeSlot_verified hs hn hn' ((s.pst.slot n).written .valid q)
    exact ⟨_, by simp [exec, execCommitComplete, hq], hframe, hnotice, hpst⟩
  · obtain ⟨hframe, hnotice, hpst⟩ := completeSlot_verified hs hn hn' ((s.pst.slot n).written .empty Profile.none)
    exact ⟨_, by simp [exec, execEraseComplete, he], hframe, hnotice, hpst⟩
  · have done : exec c s = .next (completeSlot n false ((s.pst.slot n).failed s.freeCount) s) := by
      rcases hjob with ⟨rfl, q, hq⟩ | ⟨rfl, he⟩
      · simp [exec, execCommitComplete, hq]
      · simp [exec, execEraseComplete, he]
    obtain ⟨hframe, hnotices, hpst, hcount, hfirst⟩ :=
      completeSlot_failed hs hc hn hn' ((s.pst.slot n).failed s.freeCount)
    exact ⟨_, _, done, hframe, hnotices, rfl, rfl, hpst, hcount, hfirst⟩
  · refine ⟨configNotice true (s.onPst fun q => q.configWritten c), by simp [exec, execConfigWriteComplete, hjob],
      ⟨rfl, rfl, fun b hb => ?_⟩,
      (notice_notified _ _ (s.onPst fun q => q.configWritten c)).congr rfl rfl, rfl⟩
    cases b <;> first | rfl | exact absurd (by decide) hb
  · obtain ⟨hframe, hnotices, hpst, hcount, hfirst⟩ := configDone_failed hc s.freeCount
    refine ⟨_, by simp [exec, execConfigWriteComplete, hjob], hframe, hnotices, ?_, ?_, hcount, hfirst⟩
    · rw [hpst]; rfl
    · rw [hpst]; exact configFailed_crc _ _

end Sys2Proof.Machine
end

section
/-! Byte layouts by position (R186): where a field stands in an encoding. -/

namespace Sys2Proof.Machine

/-! ### Fields of a run of bytes -/

@[simp] theorem beBytes_length (n v : Nat) : (beBytes n v).length = n := by
  induction n with
  | zero => rfl
  | succ n ih => simp [beBytes, ih]

@[simp] theorem beOpt_length (n : Nat) (o : Option Nat) : (beOpt n o).length = n := by
  cases o <;> simp [beOpt]

theorem beNat_append (xs ys : List Byte) : beNat (xs ++ ys) = beNat xs * 256 ^ ys.length + beNat ys := by
  have from_acc : ∀ (ys : List Byte) (a : Nat),
      ys.foldl (fun acc b => acc * 256 + b.toNat) a = a * 256 ^ ys.length + beNat ys := by
    intro ys
    induction ys with
    | nil => simp [beNat]
    | cons y ys ih =>
      intro a
      simp only [beNat, List.foldl_cons, List.length_cons, Nat.zero_mul, Nat.zero_add]
      rw [ih, ih y.toNat, Nat.pow_succ, Nat.add_mul, Nat.mul_assoc a, Nat.mul_comm 256, Nat.add_assoc]
  rw [beNat, List.foldl_append, from_acc]
  rfl

/-- A value read back from its bytes, modulo their range. -/
theorem beNat_beBytes (n v : Nat) : beNat (beBytes n v) = v % 256 ^ n := by
  induction n with
  | zero => simp [beBytes, beNat, Nat.mod_one]
  | succ n ih =>
    have h := beNat_append [byteOf (v >>> (8 * n))] (beBytes n v)
    rw [List.singleton_append] at h
    rw [beBytes, h, ih, beBytes_length]
    have hb : beNat [byteOf (v >>> (8 * n))] = v / 256 ^ n % 256 := by
      have h256 : (256 : Nat) ^ n = 2 ^ (8 * n) := (Nat.pow_mul 2 8 n).symm
      simp [beNat, Nat.shiftRight_eq_div_pow, h256]
    rw [hb, Nat.pow_succ, Nat.mod_mul, Nat.mul_comm, Nat.add_comm]

/-- The bytes before a field are skipped. -/
theorem field_skip {xs : List Byte} {off : Nat} (h : xs.length ≤ off) (ys : List Byte) (len : Nat) :
    field (xs ++ ys) off len = field ys (off - xs.length) len := by
  rw [field, List.drop_append, List.drop_eq_nil_of_le h, List.nil_append]; rfl

@[simp] theorem field_cons_succ (a : Byte) (xs : List Byte) (off len : Nat) :
    field (a :: xs) (off + 1) len = field xs off len := rfl

/-- What stands before the end of a field is all the field reads. -/
theorem field_keep {xs : List Byte} {off len : Nat} (h : off + len ≤ xs.length) (ys : List Byte) :
    field (xs ++ ys) off len = field xs off len := by
  rw [field, List.drop_append_of_le_length (by omega), List.take_append_of_le_length (by rw [List.length_drop]; omega)]
  rfl

theorem field_drop (xs : List Byte) (m k len : Nat) : field xs (m + k) len = field (xs.drop m) k len := by
  simp [field, List.drop_drop]

@[simp] theorem field_beBytes_append (n v : Nat) (ys : List Byte) : field (beBytes n v ++ ys) 0 n = v % 256 ^ n := by
  simp [field, beNat_beBytes]

@[simp] theorem field_beBytes (n v : Nat) : field (beBytes n v) 0 n = v % 256 ^ n := by
  simpa using field_beBytes_append n v []

@[simp] theorem flagByte_toNat (b : Bool) : (flagByte b).toNat = if b then 1 else 0 := by cases b <;> rfl

/-! ### Records of one length, one after the other -/

section
variable {α : Type} {f : α → List Byte} {w : Nat} {l : List α}

/-- Record i stands at w times i. -/
theorem flatMap_drop (hf : ∀ a ∈ l, (f a).length = w) {i : Nat} {a : α} (h : l[i]? = some a) :
    ∃ rest, (l.flatMap f).drop (w * i) = f a ++ rest := by
  induction l generalizing i with
  | nil => simp at h
  | cons b l ih =>
    have hb := hf b (List.mem_cons_self ..)
    cases i with
    | zero =>
      simp only [List.getElem?_cons_zero, Option.some.injEq] at h
      exact ⟨l.flatMap f, by simp [h]⟩
    | succ i =>
      obtain ⟨rest, hr⟩ := ih (fun a ha => hf a (List.mem_cons_of_mem _ ha)) (by simpa using h)
      refine ⟨rest, ?_⟩
      have hle : (f b).length ≤ w * (i + 1) := by rw [hb]; exact Nat.le_mul_of_pos_right w (Nat.succ_pos i)
      rw [List.flatMap_cons, List.drop_append, List.drop_eq_nil_of_le hle, hb, List.nil_append, Nat.mul_succ,
        Nat.add_sub_cancel, hr]

theorem flatMap_length (hf : ∀ a ∈ l, (f a).length = w) : (l.flatMap f).length = w * l.length := by
  induction l with
  | nil => rfl
  | cons a l ih =>
    rw [List.flatMap_cons, List.length_append, hf a (List.mem_cons_self ..),
      ih fun b hb => hf b (List.mem_cons_of_mem _ hb), List.length_cons, Nat.mul_succ, Nat.add_comm]

/-- A field of record i. -/
theorem field_flatMap (hf : ∀ a ∈ l, (f a).length = w) {i : Nat} {a : α} (h : l[i]? = some a) {k len : Nat}
    (hk : k + len ≤ w) (ys : List Byte) : field (l.flatMap f ++ ys) (w * i + k) len = field (f a) k len := by
  obtain ⟨rest, hr⟩ := flatMap_drop hf h
  have hi : w * i ≤ (l.flatMap f).length := by
    rw [flatMap_length hf]; exact Nat.mul_le_mul_left w (Nat.le_of_lt (List.getElem?_eq_some_iff.mp h).1)
  rw [field_drop, List.drop_append_of_le_length hi, hr, List.append_assoc,
    field_keep (by rw [hf a (List.mem_of_getElem? h)]; exact hk)]

end

end Sys2Proof.Machine
end

section
namespace Sys2Proof.Machine

/-! ### Profiles -/

@[simp] theorem Vertex.encode_length (v : Vertex) : v.encode.length = 19 := by
  simp [Vertex.encode, VertexPlan.encode]

theorem byteAt_skip {xs : List Byte} {off : Nat} (h : xs.length ≤ off) (ys : List Byte) :
    byteAt (xs ++ ys) off = byteAt ys (off - xs.length) := by
  simp [byteAt, List.getD_eq_getElem?_getD, List.getElem?_append_right h]

@[simp] theorem byteAt_cons_succ (a : Byte) (xs : List Byte) (off : Nat) :
    byteAt (a :: xs) (off + 1) = byteAt xs off := rfl

@[simp] theorem byteAt_cons_zero (a : Byte) (xs : List Byte) : byteAt (a :: xs) 0 = a := rfl

/-- A header part by position (section 11.4, Table 11-4). -/
theorem headerPart_reply (revision count : Nat) (h : Header) :
    HeaderReply (headerPart revision count h) revision count h := by
  have two := beBytes_length 2
  refine ⟨by simp [headerPart], ?_, fun hname => ?_⟩
  · simp [headerPart, field_skip]
  · simp [headerPart, Header.encode, field_skip, byteAt_skip, hname, List.drop_append, List.take_append, two]
    intro q rest e
    simp [e, Pattern.encode]

theorem VertexPlan.encode_length (v : VertexPlan) : v.encode.length = 16 := by simp [VertexPlan.encode]

/-- A vertex by position (Table 11-5). -/
theorem Vertex.encode_fields (v : Vertex) :
    field v.encode 0 3 = v.position % 16777216
      ∧ field v.encode 3 2 = v.plan.power % 65536 ∧ field v.encode 5 2 = v.plan.speed % 65536
      ∧ field v.encode 7 2 = v.plan.spindle % 65536 ∧ field v.encode 9 2 = v.plan.dwell % 65536
      ∧ field v.encode 11 1 = v.plan.shape.toNat ∧ field v.encode 12 2 = v.plan.tSet % 65536
      ∧ field v.encode 14 1 = v.plan.alpha % 256 ∧ field v.encode 15 1 = v.plan.ringMask.toNat
      ∧ field v.encode 16 1 = v.plan.pattern % 256 ∧ field v.encode 17 1 = (if v.plan.restart then 1 else 0)
      ∧ field v.encode 18 1 = v.plan.minTurns % 256 := by
  simp [Vertex.encode, VertexPlan.encode, field_skip]

/-- A byte read as a field of one byte. -/
theorem byteAt_toNat (bs : List Byte) (off : Nat) : (byteAt bs off).toNat = field bs off 1 := by
  rw [byteAt, field, List.getD_eq_getElem?_getD, List.take_one, List.head?_drop]
  cases bs[off]? <;> simp [beNat]

/-- A field of vertex i of a chunk (section 11.4). -/
theorem chunkPart_field {revision k i : Nat} {vs : List Vertex} {v : Vertex}
    (h : ((vs.drop (12 * k)).take 12)[i]? = some v) {j len : Nat} (hj : j + len ≤ 19) :
    field (chunkPart revision k vs) (4 + j + 19 * i) len = field v.encode j len := by
  have e : 4 + j + 19 * i = 4 + (19 * i + j) := by omega
  have record := field_flatMap (f := Vertex.encode) (w := 19) (fun v _ => v.encode_length) h hj []
  rw [List.append_nil] at record
  rw [chunkPart, e, field_skip (by simp), ← record]
  congr 1
  simp

/-- A chunk part by position (section 11.4, Table 11-5). -/
theorem chunkPart_reply (revision k : Nat) (vs : List Vertex) :
    ChunkReply (chunkPart revision k vs) revision k ((vs.drop (12 * k)).take 12) := by
  have hlen := flatMap_length (f := Vertex.encode) (w := 19) (l := (vs.drop (12 * k)).take 12)
    fun v _ => v.encode_length
  refine ⟨?_, ?_, ?_, ?_, fun i v h => ?_⟩
  · simp only [chunkPart, List.length_append, hlen, beBytes_length, List.length_cons, List.length_nil]
  · simp [chunkPart]
  · simp [chunkPart, field_skip]
  · simp [chunkPart, field_skip]
  · obtain ⟨hposition, hpower, hspeed, hspindle, hdwell, hshape, htarget, halpha, hrings, hpattern, hrestart, hturns⟩ :=
      v.encode_fields
    have at_ : ∀ (j : Nat) {len : Nat}, j + len ≤ 19 →
        field (chunkPart revision k vs) (4 + j + 19 * i) len = field v.encode j len := fun j => chunkPart_field h
    have byte_at : ∀ {j : Nat} {b : Byte}, j + 1 ≤ 19 → field v.encode j 1 = b.toNat →
        byteAt (chunkPart revision k vs) (4 + j + 19 * i) = b := fun hj hb =>
      BitVec.eq_of_toNat_eq (by rw [byteAt_toNat, at_ _ hj, hb])
    exact ⟨(at_ 0 (by decide)).trans hposition, (at_ 3 (by decide)).trans hpower, (at_ 5 (by decide)).trans hspeed,
      (at_ 7 (by decide)).trans hspindle, (at_ 9 (by decide)).trans hdwell, byte_at (j := 11) (by decide) hshape,
      (at_ 12 (by decide)).trans htarget, (at_ 14 (by decide)).trans halpha, byte_at (j := 15) (by decide) hrings,
      (at_ 16 (by decide)).trans hpattern, (at_ 17 (by decide)).trans hrestart, (at_ 18 (by decide)).trans hturns⟩

/-! ### READ_PROFILE -/

theorem readPart_header : readPart 0xFF = .header := rfl

theorem readPart_chunk {b : Byte} (h : b ≠ 0xFF) : readPart b = .chunk b.toNat := if_neg h

theorem servePart_header (revision count : Nat) (q : Profile) (s : State) :
    servePart revision count q .header s = answer (headerPart revision count q.header) s := rfl

/-- A chunk that starts below the count is answered (R15 condition 5). -/
theorem servePart_chunk {k count : Nat} (h : 12 * k < count) (revision : Nat) (q : Profile) (s : State) :
    servePart revision count q (.chunk k) s = answer (chunkPart revision k (q.vertices.take count)) s := if_pos h

theorem servePart_refused {k count : Nat} (h : count ≤ 12 * k) (revision : Nat) (q : Profile) (s : State) :
    servePart revision count q (.chunk k) s = refuse .badValue s := if_neg (Nat.not_lt.mpr h)

/-- READ_PROFILE at its length, by the profile named (R15). -/
theorem serveReadProfile_run (p : Port) (n part : Byte) (s : State) : serve .readProfile p [n, part] s =
    if n.toNat = 0 then serveReadStaging (readPart part) s
    else if n.toNat = 255 then serveReadWorking (readPart part) s
    else if n.toNat ≤ 32 then serveReadSlot n.toNat (readPart part) s
    else refuse .badValue s := by
  have hlen : RequestKind.readProfile.lengthOk [n, part] = true := rfl
  simp only [serve, serveReadProfile, uncontrolled_ok hlen, field_zero_one, byteAt_cons_succ, byteAt_cons_zero]

theorem serveReadProfile_staging (p : Port) (part : Byte) (s : State) :
    serve .readProfile p [0, part] s = serveReadStaging (readPart part) s :=
  (serveReadProfile_run p 0 part s).trans (if_pos rfl)

theorem serveReadProfile_working (p : Port) (part : Byte) (s : State) :
    serve .readProfile p [255, part] s = serveReadWorking (readPart part) s :=
  (serveReadProfile_run p 255 part s).trans ((if_neg (by decide)).trans (if_pos (by decide)))

theorem serveReadProfile_slot {n : Byte} (h : 1 ≤ n.toNat) (h' : n.toNat ≤ 32) (p : Port) (part : Byte) (s : State) :
    serve .readProfile p [n, part] s = serveReadSlot n.toNat (readPart part) s := by
  rw [serveReadProfile_run, if_neg (by omega), if_neg (by omega), if_pos h']

theorem serveReadStaging_none {s : State} (h : s.pst.stagedHeader = none) (part : ProfilePart) :
    serveReadStaging part s = refuse .wrongState s := by
  simp only [serveReadStaging, h]

theorem serveReadStaging_some {s : State} {hd : Header} (h : s.pst.stagedHeader = some hd) (part : ProfilePart) :
    serveReadStaging part s = servePart 0 s.pst.supplied ⟨hd, s.pst.stagedVertices⟩ part s := by
  simp only [serveReadStaging, h]

theorem serveReadWorking_none {s : State} (h : s.ord.working = none) (part : ProfilePart) :
    serveReadWorking part s = refuse .wrongState s := by
  simp only [serveReadWorking, h]

theorem serveReadWorking_some {s : State} {w : Working} (h : s.ord.working = some w) (part : ProfilePart) :
    serveReadWorking part s = servePart w.revision w.profile.vertices.length w.profile part s := by
  simp only [serveReadWorking, h]

/-- A slot that holds no profile to read: being written, or EMPTY or INVALID (R15). -/
theorem serveReadSlot_refused {s : State} {n : Nat} (h : (s.pst.slot n).state ≠ .valid) (part : ProfilePart) :
    serveReadSlot n part s =
      refuse (if (s.pst.slot n).state = .writing then .busy else .profileInvalid) s := by
  unfold serveReadSlot
  cases e : (s.pst.slot n).state
  case valid => exact absurd e h
  all_goals rfl

theorem serveReadSlot_valid {s : State} {n : Nat} (h : (s.pst.slot n).state = .valid) (part : ProfilePart) :
    serveReadSlot n part s =
      servePart (s.pst.slot n).revision (s.pst.slot n).profile.vertices.length (s.pst.slot n).profile part s := by
  simp only [serveReadSlot, h]

/-- A part of a profile answered: the header, a chunk, or a refusal beyond the count, by the part asked for (R15). -/
theorem readPart_answers {s : State} {p : Port} {tag n part : Byte} (ht : tag ≠ 0) (hs : s.serving p)
    {revision count : Nat} {q : Profile}
    (run : ∀ f, serve .readProfile p [n, part] (s.inService p f) =
      servePart revision count q (readPart part) (s.inService p f)) :
    (part = 0xFF → ∃ c, HeaderReply c revision count q.header
        ∧ exec (.readProfile p tag [n, part]) s = .next (s.reply p tag .readProfile [n, part] .ok c))
      ∧ (part ≠ 0xFF → 12 * part.toNat < count →
        ∃ c, ChunkReply c revision part.toNat (((q.vertices.take count).drop (12 * part.toNat)).take 12)
          ∧ exec (.readProfile p tag [n, part]) s = .next (s.reply p tag .readProfile [n, part] .ok c))
      ∧ (part ≠ 0xFF → count ≤ 12 * part.toNat →
        exec (.readProfile p tag [n, part]) s = .next (s.reply p tag .readProfile [n, part] .badValue [])) := by
  have answers : ∀ {st c}, serve .readProfile p [n, part] (s.inService p ⟨tag, RequestKind.readProfile.code, [n, part]⟩)
      = ⟨s.inService p ⟨tag, RequestKind.readProfile.code, [n, part]⟩, ⟨st, c⟩⟩ →
      exec (.readProfile p tag [n, part]) s = .next (s.reply p tag .readProfile [n, part] st c) :=
    exec_serving (k := .readProfile) ht (by simp) hs
  refine ⟨fun hp => ⟨_, headerPart_reply revision count q.header, answers ?_⟩,
    fun hp hc => ⟨_, chunkPart_reply revision part.toNat _, answers ?_⟩, fun hp hc => answers ?_⟩
  · rw [run, hp, readPart_header, servePart_header]; rfl
  · rw [run, readPart_chunk hp, servePart_chunk hc]; rfl
  · rw [run, readPart_chunk hp, servePart_refused hc]; rfl

/-- Settles O15: the profile named, then the part asked for. -/
theorem readProfileByNamedProfile : Obligations.ReadProfileByNamedProfile := by
  intro p tag n part s ht hs refused header chunk
  have answers : ∀ {st c}, serve .readProfile p [n, part] (s.inService p ⟨tag, RequestKind.readProfile.code, [n, part]⟩)
      = ⟨s.inService p ⟨tag, RequestKind.readProfile.code, [n, part]⟩, ⟨st, c⟩⟩ →
      exec (.readProfile p tag [n, part]) s = .next (s.reply p tag .readProfile [n, part] st c) :=
    exec_serving (k := .readProfile) ht (by simp) hs
  refine ⟨fun hlow hhigh => answers ?_, fun hn => ?_, fun hn => ?_, fun hlow hhigh => ?_⟩
  · rw [serveReadProfile_run, if_neg (by omega), if_neg (by omega), if_neg (by omega)]; rfl
  · subst hn
    have run := fun f => serveReadProfile_staging p part (s.inService p f)
    refine ⟨fun hh => answers ((run _).trans (serveReadStaging_none (s := s.inService p _) hh _)), fun h hh => ?_⟩
    exact readPart_answers (q := ⟨h, s.pst.stagedVertices⟩) ht hs
      fun f => (run f).trans (serveReadStaging_some (s := s.inService p f) hh _)
  · subst hn
    have run := fun f => serveReadProfile_working p part (s.inService p f)
    refine ⟨fun hw => answers ((run _).trans (serveReadWorking_none (s := s.inService p _) hw _)), fun w hw => ?_⟩
    have parts := readPart_answers (revision := w.revision) (count := w.profile.vertices.length) (q := w.profile) ht hs
      fun f => (run f).trans (serveReadWorking_some (s := s.inService p f) hw _)
    rwa [List.take_length] at parts
  · have run := fun f => serveReadProfile_slot hlow hhigh p part (s.inService p f)
    have refused_slot : (s.pst.slot n.toNat).state ≠ .valid →
        refused (if (s.pst.slot n.toNat).state = .writing then .busy else .profileInvalid) := fun he =>
      answers ((run _).trans (serveReadSlot_refused (s := s.inService p _) he _))
    refine ⟨fun he => ?_, fun he => ?_, fun he => ?_⟩
    · simpa [he] using refused_slot
    · rcases he with he | he
      · simpa [he] using refused_slot
      · simpa [he] using refused_slot
    · have parts := readPart_answers (revision := (s.pst.slot n.toNat).revision) (q := (s.pst.slot n.toNat).profile)
        (count := (s.pst.slot n.toNat).profile.vertices.length) ht hs
        fun f => (run f).trans (serveReadSlot_valid (s := s.inService p f) he _)
      rwa [List.take_length] at parts

end Sys2Proof.Machine
end

section
/-! The plain reads by position (O14, sections 11.4 to 11.8). -/

namespace Sys2Proof.Machine

/-- A read without operands is answered with its owner's content and changes nothing (Table 10-3). -/
theorem plainRead_answers {k : RequestKind} (hk : k.plainRead) {p : Port} {tag : Byte} {s : State} (ht : tag ≠ 0)
    (hs : s.serving p) : exec (k.instr p tag []) s = .next (s.reply p tag k [] .ok (readContent k s)) := by
  refine exec_serving ht (by simp) hs ?_
  rcases hk with rfl | rfl | rfl | rfl | rfl | rfl
  all_goals rfl

theorem field_one (bs : List Byte) (i : Nat) : field bs i 1 = (bs[i]?.getD 0).toNat := by
  rw [← byteAt_toNat, byteAt, List.getD_eq_getElem?_getD]

theorem code_mod {n : Nat} (h : n < 256) : n % 256 = n := Nat.mod_eq_of_lt h

/-! ### GET_FAULTS -/

theorem Capture.encode_length (c : Capture) : c.encode.length = 20 := by simp [Capture.encode]

/-- The first-fault record of a reply: all 0, or present with its capture (R155). -/
def faultRecord (o : Option Capture) : List Byte := o.elim (List.replicate 21 0) fun c => 1 :: c.encode

theorem faultRecord_length (o : Option Capture) : (faultRecord o).length = 21 := by
  cases o <;> simp [faultRecord, Capture.encode_length]

theorem faultsContent_eq (q : PfmState) :
    faultsContent q = faultRecord q.firstFault ++ (q.counts.map byteOf ++ [byteOf q.resetCause.code]) := by
  rw [← List.append_assoc]
  unfold faultsContent
  cases q.firstFault <;> rfl

theorem ResetCause.code_lt (c : ResetCause) : c.code < 256 := by cases c <;> decide

theorem faultsContent_none {q : PfmState} (h : q.firstFault = none) {i : Nat} (hi : i ≤ 20) :
    field (faultsContent q) i 1 = 0 := by
  rw [faultsContent_eq, h, field_keep (by rw [faultRecord_length]; omega), field_one]
  have hzero : (faultRecord none)[i]? = some 0 := List.getElem?_replicate_of_lt (by omega)
  rw [hzero]; rfl

theorem faultsContent_some {q : PfmState} {r : Capture} (h : q.firstFault = some r) :
    field (faultsContent q) 0 1 = 1 ∧ field (faultsContent q) 1 1 = r.kind.code
      ∧ field (faultsContent q) 3 1 = r.scanState.code ∧ field (faultsContent q) 4 4 = r.position % 4294967296
      ∧ field (faultsContent q) 15 4 = r.clock % 4294967296
      ∧ field (faultsContent q) 19 2 = r.orderTag.getD 0 % 65536 := by
  rw [faultsContent_eq, h]
  simp [faultRecord, Capture.encode, field_skip, code_mod (Cause.code_lt _), code_mod (ScanState.code_lt _)]

theorem faultsContent_count {q : PfmState} {i n : Nat} (h : q.counts[i]? = some n) :
    field (faultsContent q) (21 + i) 1 = n % 256 := by
  have hlt : i < (q.counts.map byteOf).length := by
    rw [List.length_map]; exact (List.getElem?_eq_some_iff.mp h).1
  have hle : (faultRecord q.firstFault).length ≤ 21 + i := by rw [faultRecord_length]; omega
  rw [faultsContent_eq, field_skip hle, faultRecord_length, Nat.add_sub_cancel_left, field_one,
    List.getElem?_append_left hlt]
  simp [h]

theorem faultsContent_end {q : PfmState} (h : q.counts.length = 19) :
    (faultsContent q).length = 41 ∧ field (faultsContent q) 40 1 = q.resetCause.code := by
  rw [faultsContent_eq]
  refine ⟨by simp [faultRecord_length, h], ?_⟩
  simp [field_skip, faultRecord_length, h, code_mod (ResetCause.code_lt _)]

/-! ### GET_ORDERS -/

theorem Order.encode_length {o : Order} (h : o.shaft.length = 20) : o.encode.length = 26 := by simp [Order.encode, h]

/-- An order record by position (section 11.4). -/
theorem Order.encode_fields {o : Order} (h : o.shaft.length = 20) (rest : List Byte) :
    field (o.encode ++ rest) 0 2 = o.tag % 65536 ∧ field (o.encode ++ rest) 2 1 = o.profile % 256
      ∧ field (o.encode ++ rest) 3 2 = o.revision % 65536 ∧ ((o.encode ++ rest).drop 5).take 20 = o.shaft
      ∧ field (o.encode ++ rest) 25 1 = (if o.lineStart then 1 else 0) := by
  simp [Order.encode, field_skip, h, List.drop_append, List.take_append]

theorem orderRecords_length (n : Nat) {os : List Order} (h : ∀ o ∈ os, o.shaft.length = 20) :
    (orderRecords n os).length = 26 * n := by
  induction n generalizing os with
  | zero => rfl
  | succ n ih =>
    cases os with
    | nil =>
      rw [orderRecords, List.length_append, ih h, blankOrder, List.length_replicate, Nat.mul_succ, Nat.add_comm]
    | cons o os =>
      rw [orderRecords, List.length_append, Order.encode_length (h o (List.mem_cons_self ..)),
        ih fun q hq => h q (List.mem_cons_of_mem _ hq), Nat.mul_succ, Nat.add_comm]

/-- The record of the order at place i (section 11.4). -/
theorem orderRecords_drop {n i : Nat} (hi : i < n) {os : List Order} (h : ∀ o ∈ os, o.shaft.length = 20) {o : Order}
    (ho : os[i]? = some o) : ∃ rest, (orderRecords n os).drop (26 * i) = o.encode ++ rest := by
  induction n generalizing os i with
  | zero => omega
  | succ n ih =>
    cases os with
    | nil => simp at ho
    | cons q os =>
      cases i with
      | zero =>
        simp only [List.getElem?_cons_zero, Option.some.injEq] at ho
        exact ⟨orderRecords n os, by rw [ho]; rfl⟩
      | succ i =>
        obtain ⟨rest, hr⟩ := ih (i := i) (by omega) (fun q hq => h q (List.mem_cons_of_mem _ hq)) (by simpa using ho)
        have hq := Order.encode_length (h q (List.mem_cons_self ..))
        refine ⟨rest, ?_⟩
        rw [orderRecords, List.drop_append, List.drop_eq_nil_of_le (by omega), hq, List.nil_append, Nat.mul_succ,
          Nat.add_sub_cancel, hr]

/-- The running order's part of a reply: none, or present with its record (section 11.4). -/
def runningRecord (o : Option Order) : List Byte := o.elim (0 :: blankOrder) fun o => 1 :: o.encode

theorem ordersContent_eq (d : OrdState) : ordersContent d =
    byteOf d.queue.length :: (orderRecords 4 d.queue ++ (runningRecord d.running ++ [flagByte d.startLevel])) := by
  unfold ordersContent
  cases d.running <;> simp [runningRecord]

theorem runningRecord_length {o : Option Order} (h : ∀ q, o = some q → q.shaft.length = 20) :
    (runningRecord o).length = 27 := by
  cases o with
  | none => rfl
  | some q => simp [runningRecord, Order.encode_length (h q rfl)]

/-- The parts of GET_ORDERS behind the queue's records. -/
theorem ordersContent_parts {d : OrdState} (hq : ∀ o ∈ d.queue, o.shaft.length = 20)
    (hr : ∀ o, d.running = some o → o.shaft.length = 20) :
    (ordersContent d).length = 133 ∧ field (ordersContent d) 105 1 = (if d.running = none then 0 else 1)
      ∧ field (ordersContent d) 132 1 = (if d.startLevel then 1 else 0)
      ∧ ∀ o, d.running = some o → field (ordersContent d) 106 2 = o.tag % 65536 := by
  have hlen := orderRecords_length 4 hq
  have hrun := runningRecord_length hr
  rw [ordersContent_eq]
  refine ⟨by simp [hlen, hrun], ?_, by simp [field_skip, hlen, hrun], fun o ho => ?_⟩
  · cases d.running <;> simp [field_skip, hlen, runningRecord]
  · simp [field_skip, hlen, ho, runningRecord, Order.encode]

/-- An order of the queue at its place in GET_ORDERS (section 11.4). -/
theorem ordersContent_order {d : OrdState} (hq : ∀ o ∈ d.queue, o.shaft.length = 20) {i : Nat} (hi : i < 4) {o : Order}
    (ho : d.queue[i]? = some o) : let c := ordersContent d
    field c (1 + 26 * i) 2 = o.tag % 65536 ∧ field c (3 + 26 * i) 1 = o.profile % 256
      ∧ field c (4 + 26 * i) 2 = o.revision % 65536 ∧ (c.drop (6 + 26 * i)).take 20 = o.shaft
      ∧ field c (26 + 26 * i) 1 = (if o.lineStart then 1 else 0) := by
  intro c
  obtain ⟨rest, hrest⟩ := orderRecords_drop hi hq ho
  obtain ⟨htag, hprofile, hrevision, hshaft, hline⟩ := Order.encode_fields (hq o (List.mem_of_getElem? ho))
    (rest ++ (runningRecord d.running ++ [flagByte d.startLevel]))
  have hle : 26 * i ≤ (orderRecords 4 d.queue).length := by rw [orderRecords_length 4 hq]; omega
  have dropped : ∀ k, c.drop (1 + k + 26 * i) =
      (o.encode ++ (rest ++ (runningRecord d.running ++ [flagByte d.startLevel]))).drop k := by
    intro k
    have e : 1 + k + 26 * i = (26 * i + k) + 1 := by omega
    rw [← List.append_assoc, ← hrest, ← List.drop_append_of_le_length hle, List.drop_drop, e]
    exact congrArg (List.drop (26 * i + k + 1)) (ordersContent_eq d)
  have at_ : ∀ k len, field c (1 + k + 26 * i) len =
      field (o.encode ++ (rest ++ (runningRecord d.running ++ [flagByte d.startLevel]))) k len := by
    intro k len; rw [field, dropped]; rfl
  exact ⟨(at_ 0 2).trans htag, (at_ 2 1).trans hprofile, (at_ 3 2).trans hrevision,
    (congrArg (List.take 20) (dropped 5)).trans hshaft, (at_ 25 1).trans hline⟩

/-! ### GET_PROFILE_INFO -/

/-- The 4 bytes of a slot (R14). -/
def slotInfo (v : Slot) : List Byte := byteOf v.state.code :: (beBytes 2 v.revision ++ [byteOf v.reportedCount])

theorem slotInfo_length (v : Slot) : (slotInfo v).length = 4 := by simp [slotInfo]

theorem profileInfoContent_eq (q : PstState) : profileInfoContent q =
    q.slots.flatMap slotInfo ++
      [byteOf (channelCode q.channel), flagByte q.stagedHeader.isSome, byteOf q.supplied] := rfl

theorem Slot.reportedCount_eq (v : Slot) :
    v.reportedCount = if v.state = .valid then v.profile.vertices.length else 0 := by
  unfold Slot.reportedCount
  cases v.state <;> rfl

theorem PstState.getElem?_slot {q : PstState} (hq : q.slots.length = 32) {n : Nat} (hn : 1 ≤ n) (hn' : n ≤ 32) :
    q.slots[n - 1]? = some (q.slot n) := by
  have hlt : n - 1 < q.slots.length := by omega
  simp [PstState.slot, List.getD_eq_getElem?_getD, hlt]

/-- Slot n at its place in GET_PROFILE_INFO (Table 11-10). -/
theorem profileInfoContent_slot {q : PstState} (hq : q.slots.length = 32) {n : Nat} (hn : 1 ≤ n) (hn' : n ≤ 32) :
    field (profileInfoContent q) (4 * (n - 1)) 1 = (q.slot n).state.code
      ∧ field (profileInfoContent q) (4 * (n - 1) + 1) 2 = (q.slot n).revision % 65536
      ∧ field (profileInfoContent q) (4 * (n - 1) + 3) 1 =
        (if (q.slot n).state = .valid then (q.slot n).profile.vertices.length % 256 else 0) := by
  have at_ : ∀ {j len}, j + len ≤ 4 →
      field (profileInfoContent q) (4 * (n - 1) + j) len = field (slotInfo (q.slot n)) j len := fun hj =>
    field_flatMap (fun v _ => slotInfo_length v) (q.getElem?_slot hq hn hn') hj _
  refine ⟨(at_ (j := 0) (by decide)).trans ?_, (at_ (by decide)).trans ?_, (at_ (by decide)).trans ?_⟩
  · simp [slotInfo, code_mod (SlotState.code_lt _)]
  · simp [slotInfo]
  · by_cases hv : (q.slot n).state = .valid <;> simp [slotInfo, field_skip, Slot.reportedCount_eq, hv]

/-- The parts of GET_PROFILE_INFO behind the slots. -/
theorem profileInfoContent_parts {q : PstState} (hq : q.slots.length = 32) :
    (profileInfoContent q).length = 131 ∧ field (profileInfoContent q) 128 1 = channelCode q.channel % 256
      ∧ field (profileInfoContent q) 129 1 = (if q.stagedHeader = none then 0 else 1)
      ∧ field (profileInfoContent q) 130 1 = q.supplied % 256 := by
  have hlen : (q.slots.flatMap slotInfo).length = 128 := by rw [flatMap_length fun v _ => slotInfo_length v, hq]
  rw [profileInfoContent_eq]
  refine ⟨by rw [List.length_append, hlen]; rfl, by simp [field_skip, hlen], ?_, by simp [field_skip, hlen]⟩
  cases q.stagedHeader <;> simp [field_skip, hlen]

/-! ### GET_PATCHES -/

theorem VertexPlan.encode_power (v : VertexPlan) : field v.encode 0 2 = v.power % 65536 := by simp [VertexPlan.encode]

theorem patchRecord_length (o : Option Patch) : (patchRecord o).length = 19 := by
  cases o <;> simp [patchRecord, VertexPlan.encode_length]

/-- A patch slot at its place in GET_PATCHES (section 11.4; log entry 50). -/
theorem patchesContent_field {d : OrdState} {i : Nat} {o : Option Patch} (h : d.patches[i]? = some o) {j len : Nat}
    (hj : j + len ≤ 19) : field (patchesContent d) (19 * i + j) len = field (patchRecord o) j len := by
  have record := field_flatMap (fun o _ => patchRecord_length o) h hj []
  rwa [List.append_nil] at record

theorem patchRecord_none {i : Nat} (h : i < 19) : field (patchRecord none) i 1 = 0 := by
  have hzero : (patchRecord none)[i]? = some 0 := List.getElem?_replicate_of_lt h
  rw [field_one, hzero]; rfl

theorem patchRecord_some (q : Patch) : field (patchRecord (some q)) 0 1 = 1
    ∧ field (patchRecord (some q)) 1 1 = q.profile % 256 ∧ field (patchRecord (some q)) 2 1 = q.vertex % 256
    ∧ field (patchRecord (some q)) 3 2 = q.plan.power % 65536 := by
  refine ⟨?_, ?_, ?_, ?_⟩ <;> simp [patchRecord, VertexPlan.encode_power]

/-! ### GET_CONFIG -/

theorem ConfigRecord.encode_length (c : ConfigRecord) : c.encode.length = 45 := by
  unfold ConfigRecord.encode
  simp only [List.length_append, beBytes_length, List.length_cons, List.length_nil]

/-- The configuration record by position (Table 11-8). -/
theorem ConfigRecord.encode_fields (c : ConfigRecord) : field c.encode 0 2 = c.rating % 65536
    ∧ field c.encode 4 4 = c.travelLength % 4294967296 ∧ field c.encode 21 1 = c.pulsesPerRev % 256
    ∧ field c.encode 43 2 = c.floodTime % 65536 := by
  unfold ConfigRecord.encode
  simp [field_skip]

theorem ConfigSource.code_eq (c : ConfigSource) : c.code = if c = .stored then 0 else 1 := by cases c <;> rfl

/-- The two bytes behind the record in GET_CONFIG (section 11.6). -/
theorem configContent_end (q : PstState) : (configContent q).length = 47
    ∧ field (configContent q) 45 1 = (if q.source = .stored then 0 else 1)
    ∧ field (configContent q) 46 1 = (if q.writingConfig then 1 else 0) := by
  have hlen := q.inForce.encode_length
  refine ⟨by simp [configContent, hlen], ?_, by simp [configContent, field_skip, hlen]⟩
  by_cases hs : q.source = .stored <;> simp [configContent, field_skip, hlen, ConfigSource.code_eq, hs]

/-- A field of the record in force in GET_CONFIG (section 11.6). -/
theorem configContent_field (q : PstState) {off len : Nat} (h : off + len ≤ 45) :
    field (configContent q) off len = field q.inForce.encode off len :=
  field_keep (by rw [ConfigRecord.encode_length]; exact h) _

/-! ### GET_SUMMARY -/

theorem summaryContent_none {d : OrdState} (h : d.summary = none) : summaryContent d = List.replicate 65 0 := by
  simp only [summaryContent, h]

theorem summaryContent_some {d : OrdState} {m : Summary} (h : d.summary = some m) :
    summaryContent d = 1 :: m.encode := by
  simp only [summaryContent, h]

/-- The summary's bytes before its flag counts (Table 11-7). -/
def summaryHead (m : Summary) : List Byte :=
  beBytes 2 m.tag ++ (m.shaft ++ (byteOf m.profile :: (beBytes 2 m.revision ++
    (patchBits m.patches :: byteOf m.kind.code :: byteOf m.result.code :: beOpt 1 (m.cause.map Cause.code)))))

/-- The summary's bytes behind its flag counts (Table 11-7). -/
def summaryTail (m : Summary) : List Byte :=
  beBytes 4 m.energy ++ (beBytes 4 m.time ++
    (flagByte m.largestTransfer.isSome :: beBytes 4 (m.largestTransfer.getD 0)))

theorem Summary.encode_eq (m : Summary) :
    m.encode = summaryHead m ++ (m.flagCounts.flatMap (beBytes 2) ++ summaryTail m) := by
  simp [Summary.encode, summaryHead, summaryTail]

theorem summaryHead_length {m : Summary} (h : m.shaft.length = 20) : (summaryHead m).length = 29 := by
  simp [summaryHead, h]

theorem ScanKind.code_eq (k : ScanKind) : k.code = if k = .dry then 1 else 0 := by cases k <;> rfl

/-- What stands before the flag counts of a summary, by position (Table 11-7). -/
theorem summaryHead_fields {m : Summary} (h : m.shaft.length = 20) (rest : List Byte) :
    ((summaryHead m ++ rest).drop 2).take 20 = m.shaft ∧ field (summaryHead m ++ rest) 22 1 = m.profile % 256
      ∧ field (summaryHead m ++ rest) 23 2 = m.revision % 65536 ∧ field (summaryHead m ++ rest) 26 1 = m.kind.code
      ∧ field (summaryHead m ++ rest) 27 1 = m.result.code := by
  refine ⟨?_, ?_, ?_, ?_, ?_⟩
  · simp [summaryHead, h]
  all_goals simp [summaryHead, field_skip, h, code_mod (ScanKind.code_lt _), code_mod (ScanResult.code_lt _)]

/-- The flag counts of a summary, by position (Table 11-7). -/
theorem Summary.encode_flagCount {m : Summary} (h : m.shaft.length = 20) {i n : Nat} (hn : m.flagCounts[i]? = some n) :
    field m.encode (29 + 2 * i) 2 = n % 65536 := by
  have hcount : field (m.flagCounts.flatMap (beBytes 2) ++ summaryTail m) (2 * i) 2 = n % 65536 :=
    (field_flatMap (k := 0) (fun n _ => beBytes_length 2 n) hn (Nat.le_refl 2) (summaryTail m)).trans (field_beBytes 2 n)
  have hle : (summaryHead m).length ≤ 29 + 2 * i := by rw [summaryHead_length h]; omega
  rw [Summary.encode_eq, field_skip hle, summaryHead_length h, Nat.add_sub_cancel_left, hcount]

/-- What stands behind the flag counts of a summary, by position (Table 11-7). -/
theorem Summary.encode_end {m : Summary} (h : m.shaft.length = 20) (hc : m.flagCounts.length = 11) :
    m.encode.length = 64 ∧ field m.encode 51 4 = m.energy % 4294967296 ∧ field m.encode 55 4 = m.time % 4294967296
      ∧ field m.encode 60 4 = m.largestTransfer.getD 0 % 4294967296 := by
  have hhead := summaryHead_length h
  have hcounts : (m.flagCounts.flatMap (beBytes 2)).length = 22 := by
    rw [flatMap_length fun n _ => beBytes_length 2 n, hc]
  rw [Summary.encode_eq]
  refine ⟨?_, ?_, ?_, ?_⟩
  · rw [List.length_append, List.length_append, hhead, hcounts]; rfl
  all_goals
    simp [summaryTail, field_skip, hhead, hcounts]

/-! ### Every plain read -/

/-- Settles O14: each read answers its owner's content, whose layout the lemmas above give. -/
theorem plainReadsChangeNothing : Obligations.PlainReadsChangeNothing := by
  intro p tag s ht hs answers
  have answered : ∀ {k : RequestKind}, k.plainRead → answers k (readContent k s) := fun hk => plainRead_answers hk ht hs
  have faults : answers .getFaults (faultsContent s.pfm) := answered (.inl rfl)
  have orders : answers .getOrders (ordersContent s.ord) := answered (.inr (.inl rfl))
  have info : answers .getProfileInfo (profileInfoContent s.pst) := answered (.inr (.inr (.inl rfl)))
  have patches : answers .getPatches (patchesContent s.ord) := answered (.inr (.inr (.inr (.inl rfl))))
  have config : answers .getConfig (configContent s.pst) := answered (.inr (.inr (.inr (.inr (.inl rfl)))))
  have summary : answers .getSummary (summaryContent s.ord) := answered (.inr (.inr (.inr (.inr (.inr rfl)))))
  refine ⟨⟨_, faults, fun h i hi => faultsContent_none h hi, fun r h => faultsContent_some h,
      fun i n h => faultsContent_count h, fun h => faultsContent_end h⟩,
    ⟨_, orders, ?_, fun hq hr => ?_⟩, ⟨_, info, fun hq => ?_⟩,
    ⟨_, patches, fun hp => ⟨?_, fun n hn hn' => ⟨fun h i hi => ?_, fun q h => ?_⟩⟩⟩, ⟨_, config, ?_⟩,
    ⟨_, summary, fun h => summaryContent_none h, fun m h => ?_⟩⟩
  · rw [ordersContent_eq, field_zero_one, byteOf_toNat]
  · obtain ⟨hlen, hrunning, hlevel, htag⟩ := ordersContent_parts hq hr
    exact ⟨hlen, hrunning, hlevel, htag, fun i o hi ho => ordersContent_order hq hi ho⟩
  · obtain ⟨hlen, hchannel, hstaged, hsupplied⟩ := profileInfoContent_parts hq
    refine ⟨hlen, fun n hn hn' => profileInfoContent_slot hq hn hn', fun h => ?_, fun n q h => ?_, fun r h => ?_,
      hstaged, hsupplied⟩
    · exact hchannel.trans (by rw [h]; rfl)
    · refine hchannel.trans ?_
      rcases h with h | h
      · rw [h]; rfl
      · rw [h]; rfl
    · exact hchannel.trans (by rw [h]; rfl)
  · exact (flatMap_length fun o _ => patchRecord_length o).trans (by rw [hp])
  · exact (patchesContent_field h (by omega)).trans (patchRecord_none hi)
  · obtain ⟨henabled, hprofile, hvertex, hpower⟩ := patchRecord_some q
    exact ⟨(patchesContent_field h (j := 0) (by decide)).trans henabled,
      (patchesContent_field h (by decide)).trans hprofile, (patchesContent_field h (by decide)).trans hvertex,
      (patchesContent_field h (by decide)).trans hpower⟩
  · obtain ⟨hlen, hsource, hwriting⟩ := configContent_end s.pst
    obtain ⟨hrating, htravel, hpulses, hflood⟩ := s.pst.inForce.encode_fields
    exact ⟨hlen, (configContent_field _ (by decide)).trans hrating, (configContent_field _ (by decide)).trans htravel,
      (configContent_field _ (by decide)).trans hpulses, (configContent_field _ (by decide)).trans hflood, hsource,
      hwriting⟩
  · simp only [summaryContent_some h, field_cons_succ, List.drop_succ_cons, List.length_cons]
    refine ⟨by simp, ?_, fun hshaft => ?_⟩
    · rw [Summary.encode_eq]; simp [summaryHead]
    obtain ⟨hname, hprofile, hrevision, hkind, hresult⟩ :=
      summaryHead_fields hshaft (m.flagCounts.flatMap (beBytes 2) ++ summaryTail m)
    rw [← Summary.encode_eq] at hname hprofile hrevision hkind hresult
    refine ⟨hname, hprofile, hrevision, hkind.trans m.kind.code_eq, hresult, fun i n hn => ?_, fun hc => ?_⟩
    · have hi : 30 + 2 * i = (29 + 2 * i) + 1 := by omega
      rw [hi, field_cons_succ]
      exact Summary.encode_flagCount hshaft hn
    · obtain ⟨hlen, henergy, htime, hlargest⟩ := Summary.encode_end hshaft hc
      exact ⟨by rw [hlen], henergy, htime, hlargest⟩

end Sys2Proof.Machine
end
